-- ==== Sys2Proof/Word.lean ====
section
/-! DEFINITION. The widths of the core (spec/00_scope.md R5, R6) as bit-vector types. Every value of the datapath is an
unsigned bit vector, bit 0 least significant (R7); there is no other arithmetic than R11's. -/

namespace Sys2Proof

/-- A half-block, HALF_W = 6 bits (R5). -/
abbrev Half := BitVec 6
/-- An expanded half, EXP_W = 8 bits (R5). -/
abbrev Expanded := BitVec 8
/-- A block of two halves, left then right, BLOCK_W = 12 bits (R5, R8). -/
abbrev Block := BitVec 12
/-- A master key, MKEY_W = 9 bits (R5). -/
abbrev MasterKey := BitVec 9
/-- A round key, RKEY_W = 8 bits (R5). -/
abbrev RoundKey := BitVec 8
/-- The rotated key field, ROT_W = 16 bits (R5). -/
abbrev RotField := BitVec 16
/-- An S-box index, SBOX_IN_W = 4 bits (R5). -/
abbrev SboxIndex := BitVec 4
/-- An S-box value, SBOX_OUT_W = 3 bits (R5). -/
abbrev SboxValue := BitVec 3
/-- A round count or a key index, COUNT_W = 4 bits, unsigned, 0..15 (R6, spec/30_encoding.md R62). -/
abbrev Count := BitVec 4
/-- A command word, CMD_W = 32 bits (R6). -/
abbrev CmdWord := BitVec 32
/-- A response word, RSP_W = 16 bits (R6). -/
abbrev RspWord := BitVec 16
/-- The field RES of a response, 12 bits (spec/30_encoding.md R70). -/
abbrev ResultField := BitVec 12

end Sys2Proof
end

