-- ==== Sys2Proof/Machine/Operands.lean ====
section
/-! DEFINITION. The fields of a command word (spec/30_encoding.md R60) and the operand forms taken from them (R62). No operand
is signed, scaled or shifted; bits above an operand's width are dropped (R63, spec/00_scope.md R9). -/

namespace Sys2Proof.Machine

/-- OP, bits 31:28 (R60). -/
def fieldOP (w : CmdWord) : BitVec 4 := w.extractLsb' 28 4
/-- N, bits 27:24 (R60). -/
def fieldN (w : CmdWord) : BitVec 4 := w.extractLsb' 24 4
/-- A, bits 23:8 (R60). -/
def fieldA (w : CmdWord) : BitVec 16 := w.extractLsb' 8 16
/-- K, bits 7:0 (R60). -/
def fieldK (w : CmdWord) : BitVec 8 := w.extractLsb' 0 8

/-- `half = cmd.A[5:0]` (R62). -/
def operandHalf (w : CmdWord) : Half := (fieldA w).extractLsb' 0 6
/-- `val = cmd.A[7:0]` (R62). -/
def operandVal (w : CmdWord) : Expanded := (fieldA w).extractLsb' 0 8
/-- `block = cmd.A[11:0]` (R62). -/
def operandBlock (w : CmdWord) : Block := (fieldA w).extractLsb' 0 12
/-- `mkey = cmd.A[8:0]` (R62). -/
def operandMkey (w : CmdWord) : MasterKey := (fieldA w).extractLsb' 0 9
/-- `key = cmd.K[7:0]` (R62). -/
def operandKey (w : CmdWord) : RoundKey := fieldK w
/-- `n = cmd.N[3:0]`, the round count (R62). -/
def operandCount (w : CmdWord) : Count := fieldN w
/-- `idx = cmd.N[3:0]`, the key index (R62). -/
def operandIndex (w : CmdWord) : Count := fieldN w
/-- `fin = cmd.N[0]`, bit 24 of the word (R62). -/
def operandFin (w : CmdWord) : Bool := (fieldN w).getLsbD 0

/-- A command word from its four fields: OP in the top bits, then N, A and K (R60). -/
def mkWord (op : BitVec 4) (n : BitVec 4) (a : BitVec 16) (k : BitVec 8) : CmdWord := op ++ n ++ a ++ k

end Sys2Proof.Machine
end

