-- ==== Sys2Proof/Syntax.lean ====
section
/-! DEFINITION. The eleven commands (spec/30_encoding.md R64), each with the operands of R62 at their exact widths. A reserved
command word (R65) is no command: the decoder rejects it and the step answers it with IllegalCommand. -/

namespace Sys2Proof

/-- One constructor per row of spec/opcode_table.json. -/
inductive Instr where
  /-- EXPAND (spec/40_expand_confuse_feistel.md R102). -/
  | expand (half : Half)
  /-- CONFUSE (spec/40_expand_confuse_feistel.md R107). -/
  | confuse (val : Expanded)
  /-- FEISTEL (spec/40_expand_confuse_feistel.md R109). -/
  | feistel (half : Half) (key : RoundKey)
  /-- ROUND, the swapping round (spec/41_round.md R124). -/
  | round (block : Block) (key : RoundKey)
  /-- ROUNDF, the final round without the swap (spec/41_round.md R125). -/
  | roundf (block : Block) (key : RoundKey)
  /-- KEYGEN (spec/42_key_schedule_and_store.md R144). -/
  | keygen (mkey : MasterKey) (n : Count)
  /-- ENCRYPT (spec/43_cipher_driver.md R161). -/
  | encrypt (block : Block) (n : Count)
  /-- DECRYPT (spec/43_cipher_driver.md R162). -/
  | decrypt (block : Block) (n : Count)
  /-- KCLR (spec/42_key_schedule_and_store.md R145). -/
  | kclr
  /-- KPUSH (spec/42_key_schedule_and_store.md R146). -/
  | kpush (key : RoundKey)
  /-- KREAD (spec/42_key_schedule_and_store.md R147). -/
  | kread (idx : Count)
deriving DecidableEq, Repr

end Sys2Proof
end

