-- ==== Sys2Proof/WellFormed.lean ====
section
/-! DEFINITION. Assembly lines (spec/30_encoding.md R74) and the check that makes one well formed: "Each operand must fit its
field (A: 0..0xFFFF, K: 0..0xFF, N: 0..15)". A command of `Instr` carries its operands at their exact widths, so its own
well-formedness is the well-formedness of the line a disassembler prints for it, and it never fails (log 13). -/

namespace Sys2Proof

/-- One line of R74's syntax with its operands as the unsigned numbers written there. -/
inductive AsmLine where
  | expand (a : Nat)
  | confuse (a : Nat)
  | feistel (a k : Nat)
  | round (a k : Nat)
  | roundf (a k : Nat)
  | keygen (a n : Nat)
  | encrypt (a n : Nat)
  | decrypt (a n : Nat)
  | kclr
  | kpush (k : Nat)
  | kread (n : Nat)
  /-- `.word w`: "the 32-bit word `w` as given". -/
  | word (w : Nat)
deriving DecidableEq, Repr

/-- The field A holds 0..0xFFFF (R74). -/
def fitsA (a : Nat) : Bool := decide (a < 65536)
/-- The field K holds 0..0xFF (R74). -/
def fitsK (k : Nat) : Bool := decide (k < 256)
/-- The field N holds 0..15 (R74). -/
def fitsN (n : Nat) : Bool := decide (n < 16)
/-- A `.word` operand is a 32-bit word (R74). -/
def fitsWord (w : Nat) : Bool := decide (w < 4294967296)

/-- "Each operand must fit its field" (R74). -/
def AsmLine.wellFormed : AsmLine → Bool
  | .expand a => fitsA a
  | .confuse a => fitsA a
  | .feistel a k => fitsA a && fitsK k
  | .round a k => fitsA a && fitsK k
  | .roundf a k => fitsA a && fitsK k
  | .keygen a n => fitsA a && fitsN n
  | .encrypt a n => fitsA a && fitsN n
  | .decrypt a n => fitsA a && fitsN n
  | .kclr => true
  | .kpush k => fitsK k
  | .kread n => fitsN n
  | .word w => fitsWord w

/-- The line a disassembler prints for a command: "the mnemonic of rule R64 with the operands extracted by rule R62" (R74). -/
def Instr.line : Instr → AsmLine
  | .expand half => .expand half.toNat
  | .confuse val => .confuse val.toNat
  | .feistel half key => .feistel half.toNat key.toNat
  | .round block key => .round block.toNat key.toNat
  | .roundf block key => .roundf block.toNat key.toNat
  | .keygen mkey n => .keygen mkey.toNat n.toNat
  | .encrypt block n => .encrypt block.toNat n.toNat
  | .decrypt block n => .decrypt block.toNat n.toNat
  | .kclr => .kclr
  | .kpush key => .kpush key.toNat
  | .kread idx => .kread idx.toNat

/-- A command is well formed when its line is (R74). -/
def Instr.wellFormed (i : Instr) : Bool := i.line.wellFormed

end Sys2Proof
end

