-- ==== Sys2Proof/Decode.lean ====
section
/-! DEFINITION. The decoder and the encoder (spec/30_encoding.md R60 to R67, R74). Every command is one 32-bit word, transferred
as one unit (spec/20_memory.md R42), so the decoder's input is that word; there is no byte order. -/

namespace Sys2Proof
open Sys2Proof.Machine

/-- Why a word is no command. -/
inductive DecodeError where
  /-- OP is 0x0 or 0xB to 0xF (spec/30_encoding.md R65). -/
  | reservedOpcode (op : BitVec 4)
deriving DecidableEq, Repr

/-- "first OP selects the row of rule R64 (for OP = 0x4, bit 24 then selects ROUND or ROUNDF); then the operands of rule R62 are
extracted" (spec/30_encoding.md R67). Total on all words, rejecting by name. -/
def decode (w : CmdWord) : Except DecodeError Instr :=
  match (fieldOP w).toNat with
  | 0x1 => .ok (.expand (operandHalf w))
  | 0x2 => .ok (.confuse (operandVal w))
  | 0x3 => .ok (.feistel (operandHalf w) (operandKey w))
  | 0x4 =>
    if operandFin w then .ok (.roundf (operandBlock w) (operandKey w))
    else .ok (.round (operandBlock w) (operandKey w))
  | 0x5 => .ok (.keygen (operandMkey w) (operandCount w))
  | 0x6 => .ok (.encrypt (operandBlock w) (operandCount w))
  | 0x7 => .ok (.decrypt (operandBlock w) (operandCount w))
  | 0x8 => .ok .kclr
  | 0x9 => .ok (.kpush (operandKey w))
  | 0xA => .ok (.kread (operandIndex w))
  | _ => .error (.reservedOpcode (fieldOP w))

/-- The word of a command: its operands "in the low bits of the field" and "0 in every field and bit the syntax does not name"
(spec/30_encoding.md R74). -/
def encode : Instr → CmdWord
  | .expand half => mkWord 0x1 0 (half.setWidth 16) 0
  | .confuse val => mkWord 0x2 0 (val.setWidth 16) 0
  | .feistel half key => mkWord 0x3 0 (half.setWidth 16) key
  | .round block key => mkWord 0x4 0 (block.setWidth 16) key
  | .roundf block key => mkWord 0x4 1 (block.setWidth 16) key
  | .keygen mkey n => mkWord 0x5 n (mkey.setWidth 16) 0
  | .encrypt block n => mkWord 0x6 n (block.setWidth 16) 0
  | .decrypt block n => mkWord 0x7 n (block.setWidth 16) 0
  | .kclr => mkWord 0x8 0 0 0
  | .kpush key => mkWord 0x9 0 0 key
  | .kread idx => mkWord 0xA idx 0 0

/-- The mnemonic of a command, as spec/opcode_table.json spells it. -/
def Instr.mnemonic : Instr → String
  | .expand _ => "EXPAND"
  | .confuse _ => "CONFUSE"
  | .feistel _ _ => "FEISTEL"
  | .round _ _ => "ROUND"
  | .roundf _ _ => "ROUNDF"
  | .keygen _ _ => "KEYGEN"
  | .encrypt _ _ => "ENCRYPT"
  | .decrypt _ _ => "DECRYPT"
  | .kclr => "KCLR"
  | .kpush _ => "KPUSH"
  | .kread _ => "KREAD"

/-- The formats of spec/30_encoding.md R61: which fields a command uses. -/
inductive Format where
  | fA
  | fAK
  | fNA
  | f0
  | fK
  | fN
deriving DecidableEq, Repr

/-- One row of the opcode map (spec/30_encoding.md R64). -/
structure OpcodeRow where
  mnemonic : String
  format : Format
  mask : CmdWord
  pattern : CmdWord
deriving DecidableEq, Repr

/-- The opcode map of spec/30_encoding.md R64, in its order. -/
def opcodeTable : List OpcodeRow :=
  [⟨"EXPAND", .fA, 0xF0000000, 0x10000000⟩,
   ⟨"CONFUSE", .fA, 0xF0000000, 0x20000000⟩,
   ⟨"FEISTEL", .fAK, 0xF0000000, 0x30000000⟩,
   ⟨"ROUND", .fAK, 0xF1000000, 0x40000000⟩,
   ⟨"ROUNDF", .fAK, 0xF1000000, 0x41000000⟩,
   ⟨"KEYGEN", .fNA, 0xF0000000, 0x50000000⟩,
   ⟨"ENCRYPT", .fNA, 0xF0000000, 0x60000000⟩,
   ⟨"DECRYPT", .fNA, 0xF0000000, 0x70000000⟩,
   ⟨"KCLR", .f0, 0xF0000000, 0x80000000⟩,
   ⟨"KPUSH", .fK, 0xF0000000, 0x90000000⟩,
   ⟨"KREAD", .fN, 0xF0000000, 0xA0000000⟩]

/-- "a word `w` is the command of a row exactly when `w & mask == match`" (spec/30_encoding.md R64). -/
def OpcodeRow.selects (r : OpcodeRow) (w : CmdWord) : Bool := (w &&& r.mask) == r.pattern

/-- The reserved opcodes, "0x0 or 0xB to 0xF" (spec/30_encoding.md R65). -/
def reservedOpcode (op : BitVec 4) : Bool := decide (op.toNat = 0 ∨ 11 ≤ op.toNat)

/-- The bits of the word a command uses: its opcode bits and its operands' bits. All the others "are ignored: they may hold any
value" (spec/30_encoding.md R63). -/
def Instr.usedBits : Instr → CmdWord
  | .expand _ => 0xF0003F00
  | .confuse _ => 0xF000FF00
  | .feistel _ _ => 0xF0003FFF
  | .round _ _ => 0xF10FFFFF
  | .roundf _ _ => 0xF10FFFFF
  | .keygen _ _ => 0xFF01FF00
  | .encrypt _ _ => 0xFF0FFF00
  | .decrypt _ _ => 0xFF0FFF00
  | .kclr => 0xF0000000
  | .kpush _ => 0xF00000FF
  | .kread _ => 0xFF000000

/-- The word an assembly line stands for (spec/30_encoding.md R74), none where an operand does not fit its field. -/
def AsmLine.assemble (l : AsmLine) : Option CmdWord :=
  if l.wellFormed then
    some <| match l with
      | .expand a => mkWord 0x1 0 (.ofNat 16 a) 0
      | .confuse a => mkWord 0x2 0 (.ofNat 16 a) 0
      | .feistel a k => mkWord 0x3 0 (.ofNat 16 a) (.ofNat 8 k)
      | .round a k => mkWord 0x4 0 (.ofNat 16 a) (.ofNat 8 k)
      | .roundf a k => mkWord 0x4 1 (.ofNat 16 a) (.ofNat 8 k)
      | .keygen a n => mkWord 0x5 (.ofNat 4 n) (.ofNat 16 a) 0
      | .encrypt a n => mkWord 0x6 (.ofNat 4 n) (.ofNat 16 a) 0
      | .decrypt a n => mkWord 0x7 (.ofNat 4 n) (.ofNat 16 a) 0
      | .kclr => mkWord 0x8 0 0 0
      | .kpush k => mkWord 0x9 0 0 (.ofNat 8 k)
      | .kread n => mkWord 0xA (.ofNat 4 n) 0 0
      | .word w => .ofNat 32 w
  else none

/-- The line a disassembler prints for a word; a reserved word has no mnemonic and is printed as data (spec/30_encoding.md
R74). -/
def disassemble (w : CmdWord) : AsmLine :=
  match decode w with
  | .ok i => i.line
  | .error _ => .word w.toNat

/-- The command read from an instruction of `nbits` bits whose bits are `w`, the bits above `nbits` zero. A command word is one
32-bit unit (spec/30_encoding.md R60, R66). -/
def decodeTableWord (nbits w : Nat) : Option Instr :=
  match decode (BitVec.ofNat 32 (w % 2 ^ nbits)) with
  | .ok i => some i
  | .error _ => none

end Sys2Proof
end

