-- ==== Sys2Proof/Config.lean ====
section
/-! DEFINITION. What is fixed for the hardware, and the free values: contents the spec calls unspecified
(spec/93_implementation_defined.md U2, U3, U4: "any value"). A free value is an uninterpreted constant applied to the counter
`draws` of State, so that nothing in Lean can evaluate it and a proof holds whatever it is. -/

namespace Sys2Proof

/-- MAX_ROUNDS = KEYSTORE_N = 9 (spec/00_scope.md R5, R6). -/
abbrev Config.maxRounds : Nat := 9

/-- The driver's direction register DIR: 0 encrypt, 1 decrypt (spec/10_state.md R25). -/
inductive Direction where
  | encrypt
  | decrypt
deriving DecidableEq, Repr, Inhabited

/-- DESIGN CHOICE (log 3), safe: what `RK[i]` holds after a reset (spec/10_state.md R30: "unspecified"; U2). -/
opaque Config.freeKey : Nat → Nat → RoundKey
/-- DESIGN CHOICE (log 4), safe: what RSP holds while no response is valid (spec/10_state.md R26, R30; U3). -/
opaque Config.freeRsp : Nat → RspWord
/-- DESIGN CHOICE (log 5), safe: what BLK holds between commands and after reset (spec/10_state.md R25, R30; U4). -/
opaque Config.freeBlk : Nat → Block
/-- DESIGN CHOICE (log 5), safe: what RI holds between commands and after reset (spec/10_state.md R25, R30; U4). -/
opaque Config.freeRi : Nat → Count
/-- DESIGN CHOICE (log 5), safe: what NR holds between commands and after reset (spec/10_state.md R25, R30; U4). -/
opaque Config.freeNr : Nat → Count
/-- DESIGN CHOICE (log 5), safe: what DIR holds between commands and after reset (spec/10_state.md R25, R30; U4). -/
opaque Config.freeDir : Nat → Direction

end Sys2Proof
end

