-- ==== Sys2Proof/Machine/Datapath.lean ====
section
/-! DEFINITION. The pure functions of the datapath (spec/40_expand_confuse_feistel.md, 41_round.md,
42_key_schedule_and_store.md section 1). None reads or writes state (spec/00_scope.md R10). -/

namespace Sys2Proof.Machine

/-- Bit `i` of a half as a one-bit vector (spec/00_scope.md R11 `a[i]`). -/
def halfBit (h : Half) (i : Nat) : BitVec 1 := h.extractLsb' i 1

/-- `expand(h) = {h[5], h[4], h[2], h[3], h[2], h[3], h[1], h[0]}` (spec/40_expand_confuse_feistel.md R100; the vectors' order,
spec/90_conflicts.md C1). -/
def expand (h : Half) : Expanded :=
  halfBit h 5 ++ halfBit h 4 ++ halfBit h 2 ++ halfBit h 3 ++ halfBit h 2 ++ halfBit h 3 ++ halfBit h 1 ++ halfBit h 0

/-- The contents of S1, index 0 first (spec/40_expand_confuse_feistel.md R104). -/
def s1Rom : Vector SboxValue 16 := #v[5, 2, 1, 6, 3, 4, 7, 0, 1, 4, 6, 2, 0, 7, 5, 3]

/-- The contents of S2, index 0 first (spec/40_expand_confuse_feistel.md R105). -/
def s2Rom : Vector SboxValue 16 := #v[4, 0, 6, 5, 7, 1, 3, 2, 5, 3, 0, 7, 6, 2, 1, 4]

/-- `S1[i]` (spec/40_expand_confuse_feistel.md R103). -/
def s1 (i : SboxIndex) : SboxValue := s1Rom[i.toNat]'i.isLt

/-- `S2[i]` (spec/40_expand_confuse_feistel.md R103). -/
def s2 (i : SboxIndex) : SboxValue := s2Rom[i.toNat]'i.isLt

/-- `confuse(v) = {S1[v[7:4]], S2[v[3:0]]}` (spec/40_expand_confuse_feistel.md R106). -/
def confuse (v : Expanded) : Half := s1 (v.extractLsb' 4 4) ++ s2 (v.extractLsb' 0 4)

/-- `feistel(h, k) = confuse(expand(h) ^ k)` (spec/40_expand_confuse_feistel.md R108). -/
def feistel (h : Half) (k : RoundKey) : Half := confuse (expand h ^^^ k)

/-- `L = B[11:6]` (spec/00_scope.md R8). -/
def leftHalf (b : Block) : Half := b.extractLsb' 6 6

/-- `R = B[5:0]` (spec/00_scope.md R8). -/
def rightHalf (b : Block) : Half := b.extractLsb' 0 6

/-- `B = (L << 6) | R` (spec/00_scope.md R8). -/
def joinHalves (l r : Half) : Block := l ++ r

/-- `swap(B) = {B[5:0], B[11:6]}` (spec/41_round.md R123). -/
def swapHalves (b : Block) : Block := joinHalves (rightHalf b) (leftHalf b)

/-- `R' = F ^ L` with `F = feistel(R, key)` (spec/41_round.md R120). -/
def mixedHalf (b : Block) (k : RoundKey) : Half := feistel (rightHalf b) k ^^^ leftHalf b

/-- `round(block, key) = {R, R'}`, the swapping variant (spec/41_round.md R121). -/
def swapRound (b : Block) (k : RoundKey) : Block := joinHalves (rightHalf b) (mixedHalf b k)

/-- `roundf(block, key) = {R', R}`, the final variant (spec/41_round.md R122; spec/90_conflicts.md C2). -/
def finalRound (b : Block) (k : RoundKey) : Block := joinHalves (mixedHalf b k) (rightHalf b)

/-- `rot16(mk) = {mk[8:0], mk[8:2]}` (spec/42_key_schedule_and_store.md R140). -/
def rot16 (mk : MasterKey) : RotField := mk ++ mk.extractLsb' 2 7

/-- `round_key(mk, i) = (rot16(mk) >> (8 - i)) & 0xFF`, `0 <= i <= 8` (spec/42_key_schedule_and_store.md R141). -/
def roundKey (mk : MasterKey) (i : Nat) : RoundKey := (rot16 mk >>> (8 - i)).setWidth 8

end Sys2Proof.Machine
end

