-- ==== Sys2Proof/Machine/Flags.lean ====
section
/-! DEFINITION. What stands in the place of flags. The core has no flag, condition code or sticky error bit (spec/10_state.md
R28): the outcome of a command is the status field of its own response word (spec/30_encoding.md R70, R71). -/

namespace Sys2Proof.Machine

/-- The four statuses a command can end in (spec/60_exceptions.md R180; R71: 0x4..0xF are never produced). -/
inductive Status where
  | ok
  | invalidRoundCount
  | insufficientKeys
  | illegalCommand
deriving DecidableEq, Repr

/-- The code of a status in ST (spec/30_encoding.md R71). -/
def statusCode : Status → BitVec 4
  | .ok => 0x0
  | .invalidRoundCount => 0x1
  | .insufficientKeys => 0x2
  | .illegalCommand => 0x3

/-- `rsp = (ST << 12) | RES` (spec/30_encoding.md R70). -/
def packRsp (st : Status) (res : ResultField) : RspWord := statusCode st ++ res

/-- ST, bits 15:12 of a response word (R70). -/
def rspST (r : RspWord) : BitVec 4 := r.extractLsb' 12 4
/-- RES, bits 11:0 of a response word (R70). -/
def rspRES (r : RspWord) : ResultField := r.extractLsb' 0 12

end Sys2Proof.Machine
end

