-- ==== Sys2Proof/Machine/State.lean ====
section
/-! DEFINITION. The state of the core (spec/10_state.md R20: "the following and nothing else"), the host's pins, the reset state
(R30), and the reasons a step can stop. INVENTORY.md lists every field with its rule. -/

namespace Sys2Proof.Machine

/-- The levels the host drives on its pins at one moment the core samples them (spec/30_encoding.md R68). Any record is a legal
sample; how long the moment lasts is not modelled (log 2). -/
structure HostPins where
  /-- `rst`, active high (spec/70_reset_and_hazards.md R200). -/
  rst : Bool
  /-- `cmd_valid`: the host presents a command word on `cmd`. -/
  cmdValid : Bool
  /-- `cmd`: the command word. -/
  cmd : CmdWord
  /-- `rsp_ready`: the host takes the response. -/
  rspReady : Bool
deriving DecidableEq, Repr

/-- The core's state, R20's table row by row, and three fields of the model's own (`host`, `held`, `draws`). -/
structure State where
  /-- RK0..RK8, the key store (spec/10_state.md R21). -/
  rk : Vector RoundKey 9
  /-- KLEN, 0..9; "a model should give KLEN a type that cannot hold them" of 10..15 (spec/10_state.md R22; log 10). -/
  klen : Fin 10
  /-- RSP: ST in bits 15:12, RES in bits 11:0 (spec/10_state.md R26). -/
  rsp : RspWord
  /-- Whether the response port signals valid (spec/30_encoding.md R69). -/
  rspValid : Bool
  /-- BLK, the driver's block (spec/10_state.md R25). -/
  blk : Block
  /-- RI, the rounds already applied (spec/10_state.md R25). -/
  ri : Count
  /-- NR, the requested round count (spec/10_state.md R25). -/
  nr : Count
  /-- DIR, the direction (spec/10_state.md R25). -/
  dir : Direction
  /-- BUSY: a command is in progress or its response has not been taken (spec/30_encoding.md R69; log 7). -/
  busy : Bool
  /-- The model's own (log 9): the word the host presents and the core has not accepted. -/
  held : Option CmdWord
  /-- The model's own (log 1): what the host will drive, one record a step. -/
  host : List HostPins
  /-- The model's own (log 6): the counter the free values of Config are applied to. -/
  draws : Nat
deriving DecidableEq, Repr

/-- The reset state of spec/10_state.md R30: KLEN 0, BUSY 0, no response pending, everything else unspecified and so drawn from
the free values at `d` (logs 3, 4, 5). -/
def State.afterReset (d : Nat) : State where
  rk := #v[Config.freeKey d 0, Config.freeKey d 1, Config.freeKey d 2, Config.freeKey d 3, Config.freeKey d 4,
    Config.freeKey d 5, Config.freeKey d 6, Config.freeKey d 7, Config.freeKey d 8]
  klen := 0
  rsp := Config.freeRsp d
  rspValid := false
  blk := Config.freeBlk d
  ri := Config.freeRi d
  nr := Config.freeNr d
  dir := Config.freeDir d
  busy := false
  held := none
  host := []
  draws := d + 1

/-- The machine right after reset (spec/10_state.md R30), with a host that presents nothing yet. -/
def State.reset : State := State.afterReset 0

/-- Why the machine stops with a fault: never. Every error of the core is a response, "not a crash" (spec/60_exceptions.md
R181, R186), so the type is empty, which claims of the absence of faults rest on: safe. -/
inductive Fault where
deriving DecidableEq, Repr

/-- Why a step gives a run no meaning. -/
inductive Refusal where
  /-- Raised by `exec` for a command without a meaning; no arm raises it. Safe. -/
  | notModelled (mnemonic : String)
  /-- Raised by `step` when the host drops `cmd_valid` before acceptance: "such runs are outside the spec"
  (spec/93_implementation_defined.md U8). Safe: nothing is claimed of such a run. -/
  | hostDroppedCommand
  /-- Raised by `step` when the host changes `cmd` while `cmd_valid` is 1 before acceptance
  (spec/93_implementation_defined.md U8). Safe: nothing is claimed of such a run. -/
  | hostChangedCommand
deriving DecidableEq, Repr

/-- What a step or a meaning answers. -/
abbrev Result := Host.Outcome State Fault Refusal

end Sys2Proof.Machine
end

