-- ==== Sys2Proof/Machine/Ops.lean ====
section
/-! DEFINITION. The shared operations over the state: the two key-store accesses (spec/20_memory.md R41), ending a command with a
response (spec/10_state.md R26), raising an error (spec/60_exceptions.md R185, R186), and the events of the ports: accepting a
command and taking a response (spec/30_encoding.md R69), and reset (spec/70_reset_and_hazards.md R200). -/

namespace Sys2Proof.Machine

/-- `KeyRead(i)`: the 8-bit content of `RK[i]`, "requires `0 <= i < KLEN`"; where that fails nothing is read
(spec/20_memory.md R41, R52). -/
def keyRead (i : Nat) (s : State) : Option RoundKey := if i < s.klen.val then s.rk[i]? else none

/-- `KeyWrite(i, v)`: "sets `RK[i]` to the 8-bit value `v`; every other entry keeps its value"; used with `0 <= i <= 8` only
(spec/20_memory.md R41). -/
def keyWrite (i : Nat) (v : RoundKey) (s : State) : State := { s with rk := s.rk.setIfInBounds i v }

/-- `KLEN <- n` for an `n` of 0..9 (spec/10_state.md R22). -/
def setKlen (n : Fin 10) (s : State) : State := { s with klen := n }

/-- `respond(st, res)`: "RSP is written exactly once per accepted command, at the command's end, with both fields together"
(spec/10_state.md R26), and the port signals valid (spec/30_encoding.md R69). -/
def respond (st : Status) (res : ResultField) (s : State) : State :=
  { s with rsp := packRsp st res, rspValid := true }

/-- `raise <Error>`, the whole of taking an error: "an error saves no state anywhere", changes no mode and transfers control
nowhere; "the response word is the whole of the report", with RES = 0 (spec/60_exceptions.md R185, R186). -/
def raise (e : Status) (s : State) : State := respond e 0 s

/-- After its error response is taken "the core is ready for the next command exactly as after an OK response"
(spec/60_exceptions.md R189): there is no other return than taking the response, after which `rsp_valid` is 0 and `cmd_ready`
is 1 (spec/30_encoding.md R69) and the content of RSP is unspecified (spec/10_state.md R26; log 4). -/
def takeResponse (s : State) : State :=
  { s with rsp := Config.freeRsp s.draws, rspValid := false, busy := false, draws := s.draws + 1 }

/-- Acceptance of a command: BUSY = 1 until its response has been taken (spec/30_encoding.md R69; log 7). -/
def accept (s : State) : State := { s with busy := true, held := none }

/-- The host presents, or does not present, a word that is not accepted now (log 9). -/
def hold (w : Option CmdWord) (s : State) : State := { s with held := w }

/-- The effect of `rst`: the reset state, whatever the state was; what the host goes on to drive is not the core's
(spec/70_reset_and_hazards.md R200, R202; log 18). -/
def resetCore (s : State) : State := { State.afterReset s.draws with host := s.host }

/-- Between commands the content of BLK, RI, NR and DIR is unspecified (spec/10_state.md R25; U4; log 5): free values. -/
def releaseDriver (s : State) : State :=
  { s with blk := Config.freeBlk s.draws, ri := Config.freeRi s.draws, nr := Config.freeNr s.draws,
           dir := Config.freeDir s.draws, draws := s.draws + 1 }

/-- The answer to a reserved command word: IllegalCommand, "Nothing is changed" (spec/60_exceptions.md R183). -/
def illegalCommand (s : State) : State := raise .illegalCommand s

end Sys2Proof.Machine
end

