-- ==== Sys2Proof/Machine/Driver.lean ====
section
/-! DEFINITION. ENCRYPT and DECRYPT as the sequential machine of spec/43_cipher_driver.md R165 over the working registers BLK, RI,
NR, DIR and BUSY, the whole command in one step ("a model may take the whole command as one step"). -/

namespace Sys2Proof.Machine

/-- R165 `accept`: `BLK <- cmd.A[11:0]; NR <- cmd.N; DIR <- (OP == 0x7); RI <- 0; BUSY <- 1`. -/
def loadDriver (d : Direction) (block : Block) (n : Count) (s : State) : State :=
  { s with blk := block, nr := n, dir := d, ri := 0, busy := true }

/-- R165: `idx = (DIR == 0) ? RI : NR - 1 - RI`. -/
def driverIndex (s : State) : Nat :=
  match s.dir with
  | .encrypt => s.ri.toNat
  | .decrypt => s.nr.toNat - 1 - s.ri.toNat

/-- R165, the body of `step`: one round with the key at the driver's index, the final variant on the last one. The key is read
by `KeyRead`, so no round is computed from an entry at or beyond KLEN (spec/20_memory.md R52; log 11). -/
def driverStep (s : State) : Option State :=
  match keyRead (driverIndex s) s with
  | some k =>
    some { s with blk := if s.ri.toNat + 1 = s.nr.toNat then finalRound s.blk k else swapRound s.blk k, ri := s.ri + 1 }
  | none => none

/-- R165: `while RI != NR`; "The loop runs exactly `NR <= 9` steps", so a bound of nine steps never cuts it short. -/
def driverLoop : Nat → State → Option State
  | 0, s => some s
  | fuel + 1, s =>
    if s.ri = s.nr then some s
    else match driverStep s with
      | some s' => driverLoop fuel s'
      | none => none

/-- R160 and R165: load the working registers, answer InsufficientKeys if `NR > KLEN`, else run the rounds and respond with BLK.
When the command has ended the working registers are unspecified (spec/10_state.md R25). -/
def runDriver (d : Direction) (block : Block) (n : Count) (s : State) : State :=
  if s.klen.val < n.toNat then releaseDriver (raise .insufficientKeys (loadDriver d block n s))
  else match driverLoop Config.maxRounds (loadDriver d block n s) with
    | some t => releaseDriver (respond .ok t.blk t)
    | none => releaseDriver (raise .insufficientKeys (loadDriver d block n s))

/-- ENCRYPT: keys `RK[0]` to `RK[n-1]` in order, the last round without the swap (R161). -/
def execEncrypt (block : Block) (n : Count) (s : State) : Result := .next (runDriver .encrypt block n s)

/-- DECRYPT: the same with the keys in reverse order (R162). -/
def execDecrypt (block : Block) (n : Count) (s : State) : Result := .next (runDriver .decrypt block n s)

end Sys2Proof.Machine
end

