-- ==== Sys2Proof/Machine/KeyStore.lean ====
section
/-! DEFINITION. KEYGEN, KCLR, KPUSH and KREAD (spec/42_key_schedule_and_store.md). Entries at or beyond KLEN keep their physical
content where the rules write nothing there (R144, R145; log 8). -/

namespace Sys2Proof.Machine

/-- `for i = 0 .. n-1: KeyWrite(i, round_key(mkey, i))` (R144). -/
def writeSchedule (mkey : MasterKey) : Nat → State → State
  | 0, s => s
  | n + 1, s => keyWrite n (roundKey mkey n) (writeSchedule mkey n s)

/-- KEYGEN: a count above 9 empties the store and raises InvalidRoundCount; otherwise the schedule replaces the sequence as a
whole (R144). -/
def execKeygen (mkey : MasterKey) (n : Count) (s : State) : Result :=
  if h : n.toNat < 10 then
    .next (respond .ok (n.setWidth 12) (setKlen ⟨n.toNat, h⟩ (writeSchedule mkey n.toNat s)))
  else .next (raise .invalidRoundCount (setKlen 0 s))

/-- KCLR: `KLEN <- 0`, `respond(OK, 0)` (R145). -/
def execKclr (s : State) : Result := .next (respond .ok 0 (setKlen 0 s))

/-- KPUSH: append one key, or raise InvalidRoundCount on a store of nine (R146). -/
def execKpush (key : RoundKey) (s : State) : Result :=
  if h : s.klen.val + 1 < 10 then
    .next (respond .ok (BitVec.ofNat 12 (s.klen.val + 1)) (setKlen ⟨s.klen.val + 1, h⟩ (keyWrite s.klen.val key s)))
  else .next (raise .invalidRoundCount s)

/-- KREAD: `RK[idx]` for an index below KLEN, InsufficientKeys otherwise (R147). -/
def execKread (idx : Count) (s : State) : Result :=
  match keyRead idx.toNat s with
  | some k => .next (respond .ok (k.setWidth 12) s)
  | none => .next (raise .insufficientKeys s)

end Sys2Proof.Machine
end

