-- ==== Sys2Proof/Machine/Leaf.lean ====
section
/-! DEFINITION. EXPAND, CONFUSE and FEISTEL (spec/40_expand_confuse_feistel.md). Total; they read and write no state but RSP
(R110). -/

namespace Sys2Proof.Machine

/-- EXPAND: `respond(OK, zext_12(expand(half)))` (R102). -/
def execExpand (half : Half) (s : State) : Result := .next (respond .ok ((expand half).setWidth 12) s)

/-- CONFUSE: `respond(OK, zext_12(confuse(val)))` (R107). -/
def execConfuse (val : Expanded) (s : State) : Result := .next (respond .ok ((confuse val).setWidth 12) s)

/-- FEISTEL: `respond(OK, zext_12(feistel(half, key)))`; the key comes from the command word (R109). -/
def execFeistel (half : Half) (key : RoundKey) (s : State) : Result :=
  .next (respond .ok ((feistel half key).setWidth 12) s)

end Sys2Proof.Machine
end

