-- ==== Sys2Proof/Machine/Round.lean ====
section
/-! DEFINITION. ROUND and ROUNDF (spec/41_round.md). Total; they read and write no state but RSP (R127). -/

namespace Sys2Proof.Machine

/-- ROUND: `respond(OK, round(block, key))` (R124). -/
def execRound (block : Block) (key : RoundKey) (s : State) : Result := .next (respond .ok (swapRound block key) s)

/-- ROUNDF: `respond(OK, roundf(block, key))` (R125). -/
def execRoundf (block : Block) (key : RoundKey) (s : State) : Result := .next (respond .ok (finalRound block key) s)

end Sys2Proof.Machine
end

