-- ==== Sys2Proof/Machine/Dispatch.lean ====
section
/-! DEFINITION. One arm per command: each is one direct call of that command's meaning. -/

namespace Sys2Proof.Machine

def exec (i : Instr) (s : State) : Host.Outcome State Fault Refusal :=
  match i with
  | .expand half => Sys2Proof.Machine.execExpand half s
  | .confuse val => Sys2Proof.Machine.execConfuse val s
  | .feistel half key => Sys2Proof.Machine.execFeistel half key s
  | .round block key => Sys2Proof.Machine.execRound block key s
  | .roundf block key => Sys2Proof.Machine.execRoundf block key s
  | .keygen mkey n => Sys2Proof.Machine.execKeygen mkey n s
  | .encrypt block n => Sys2Proof.Machine.execEncrypt block n s
  | .decrypt block n => Sys2Proof.Machine.execDecrypt block n s
  | .kclr => Sys2Proof.Machine.execKclr s
  | .kpush key => Sys2Proof.Machine.execKpush key s
  | .kread idx => Sys2Proof.Machine.execKread idx s

end Sys2Proof.Machine
end

