-- ==== Sys2Proof/Machine/Port.lean ====
section
/-! DEFINITION. The ports and their handshake (spec/30_encoding.md R68, R69; spec/70_reset_and_hazards.md R200 to R202, R211): the
core's outputs, and which one event a sample of the host's pins brings about. -/

namespace Sys2Proof.Machine

/-- `cmd_ready`: 0 while `rst` is 1 (spec/70_reset_and_hazards.md R201) and while BUSY is 1 (spec/30_encoding.md R69). -/
def cmdReady (rst : Bool) (s : State) : Bool := !rst && !s.busy

/-- `rsp_valid`: 0 while `rst` is 1 (spec/70_reset_and_hazards.md R201). -/
def rspValidOut (rst : Bool) (s : State) : Bool := !rst && s.rspValid

/-- `rsp`: the content of RSP (spec/30_encoding.md R68). -/
def rspOut (s : State) : RspWord := s.rsp

/-- The word the host presents, if any. -/
def HostPins.presented (p : HostPins) : Option CmdWord := if p.cmdValid then some p.cmd else none

/-- What one sample of the pins brings about. -/
inductive PortEvent where
  /-- `rst` is 1: it "overrides everything" (spec/60_exceptions.md R187). -/
  | reset
  /-- The host dropped `cmd_valid` before acceptance (U8). -/
  | droppedCommand
  /-- The host changed `cmd` before acceptance (U8). -/
  | changedCommand
  /-- `rsp_valid` and `rsp_ready`: the response is taken (R69). -/
  | take
  /-- `cmd_valid` and `cmd_ready`: the word is accepted (R69). -/
  | accept (w : CmdWord)
  /-- None of these: the core waits, state unchanged (R211). -/
  | wait
deriving DecidableEq, Repr

/-- Whether the host keeps presenting the word it presented before, as R211 obliges it to "until acceptance". -/
def keepsHeld (p : HostPins) (s : State) : Bool :=
  match s.held with
  | none => true
  | some w => decide (p.presented = some w)

/-- The event of one sample (R69, R200, R211). A response taken and a word presented in the same sample: the response is taken
and the word stays presented, since `cmd_ready` is 0 until the response has been taken (log 17). -/
def portEvent (p : HostPins) (s : State) : PortEvent :=
  if p.rst then .reset
  else if !keepsHeld p s then (if p.cmdValid then .changedCommand else .droppedCommand)
  else if rspValidOut p.rst s && p.rspReady then .take
  else if cmdReady p.rst s && p.cmdValid then .accept p.cmd
  else .wait

end Sys2Proof.Machine
end

