-- ==== Sys2Proof/Machine/Fetch.lean ====
section
/-! DEFINITION. What one sample of the host's pins does. A command accepted in it runs to its response (spec/20_memory.md R44,
R47); a reserved word is answered with IllegalCommand (spec/30_encoding.md R65, R67). -/

namespace Sys2Proof.Machine

/-- The state in which an accepted command runs: its sample consumed, BUSY set (spec/30_encoding.md R69). -/
def acceptedState (rest : List HostPins) (s : State) : State := accept { s with host := rest }

/-- Runs the command word just accepted: decode, then the command's own check and effect (spec/30_encoding.md R67). -/
def runWord (w : CmdWord) (s : State) : Result :=
  match decode w with
  | .ok i => exec i s
  | .error _ => .next (illegalCommand s)

/-- The effect of one sample `p`, the host going on with `rest` (R69, R200, R211; U8). -/
def portStep (p : HostPins) (rest : List HostPins) (s : State) : Result :=
  match portEvent p s with
  | .reset => .next (hold p.presented (resetCore { s with host := rest }))
  | .droppedCommand => .refused .hostDroppedCommand
  | .changedCommand => .refused .hostChangedCommand
  | .take => .next (hold p.presented (takeResponse { s with host := rest }))
  | .accept w => runWord w (acceptedState rest s)
  | .wait => .next (hold p.presented { s with host := rest })

/-- A host that presents the word `w` and holds back its `rsp_ready`. -/
def pinsPresent (w : CmdWord) : HostPins := { rst := false, cmdValid := true, cmd := w, rspReady := false }

/-- A host that presents nothing and takes the response. -/
def pinsTake : HostPins := { rst := false, cmdValid := false, cmd := 0, rspReady := true }

/-- A host that asserts reset and presents nothing. -/
def pinsReset : HostPins := { rst := true, cmdValid := false, cmd := 0, rspReady := false }

/-- A program in the sense of spec/95_test_vectors.md section 3: "a sequence of commands issued in order, each after the
previous response was taken". -/
def programPins : List CmdWord → List HostPins
  | [] => []
  | w :: ws => pinsPresent w :: pinsTake :: programPins ws

end Sys2Proof.Machine
end

