-- ==== Sys2Proof/Machine/Step.lean ====
section
/-! DEFINITION. One step: the core samples the host's pins once. -/

namespace Sys2Proof.Machine

/-- One step. With nothing more from the host the core waits, all state kept (spec/60_exceptions.md R192; log 12). -/
def step (s : State) : Host.Outcome State Fault Refusal :=
  match s.host with
  | [] => .next s
  | p :: rest => portStep p rest s

/-- The state with a host that presents the given word to a core ready to accept it, so that the very next step runs it
(log 1): the port is idle and no other word is being presented. -/
def State.withFetchWord (s : State) (nbits w : Nat) : State :=
  { s with busy := false, rspValid := false, held := none,
           host := pinsPresent (BitVec.ofNat 32 (w % 2 ^ nbits)) :: s.host }

end Sys2Proof.Machine
end

