-- ==== Sys2Proof/Machine/Assembler.lean ====
section
/-! DEFINITION. The text of assembly lines and of responses (spec/30_encoding.md R74). It is notation for command sequences, no
part of the core; white space and the details R74 leaves open are log 15. -/

namespace Sys2Proof.Machine

/-- Blank characters around mnemonics and operands. -/
def isBlank (c : Char) : Bool := c == ' ' || c == '\t'

/-- A text without its leading and trailing blanks. -/
def trimBlanks (t : List Char) : List Char := ((t.dropWhile isBlank).reverse.dropWhile isBlank).reverse

/-- The pieces of a text between commas: one more than it has commas. -/
def splitCommas : List Char → List (List Char)
  | [] => [[]]
  | c :: t =>
    if c == ',' then [] :: splitCommas t
    else match splitCommas t with
      | [] => [[c]]
      | piece :: pieces => (c :: piece) :: pieces

/-- The value of a digit character in bases up to sixteen, letters in either case. -/
def digitValue (c : Char) : Option Nat :=
  if '0'.toNat ≤ c.toNat ∧ c.toNat ≤ '9'.toNat then some (c.toNat - '0'.toNat)
  else if 'A'.toNat ≤ c.toNat ∧ c.toNat ≤ 'F'.toNat then some (c.toNat - 'A'.toNat + 10)
  else if 'a'.toNat ≤ c.toNat ∧ c.toNat ≤ 'f'.toNat then some (c.toNat - 'a'.toNat + 10)
  else none

/-- A number's digits, most significant first, read from the value so far. -/
def readDigits (base : Nat) : Nat → List Char → Option Nat
  | acc, [] => some acc
  | acc, c :: t =>
    match digitValue c with
    | some d => if d < base then readDigits base (acc * base + d) t else none
    | none => none

/-- "numbers are unsigned, in hex with the prefix `0x` or in decimal" (R74). -/
def readNumber : List Char → Option Nat
  | [] => none
  | ['0', 'x'] => none
  | '0' :: 'x' :: t => readDigits 16 0 t
  | t => readDigits 10 0 t

/-- Every piece read as a number. -/
def readNumbers : List (List Char) → Option (List Nat)
  | [] => some []
  | t :: ts =>
    match readNumber (trimBlanks t), readNumbers ts with
    | some n, some ns => some (n :: ns)
    | _, _ => none

/-- "a `;` starts a comment to the end of the line" (R74). -/
def dropComment (t : List Char) : List Char := t.takeWhile (· != ';')

/-- The line of a mnemonic and its operands "in the order below"; "mnemonics are upper case" (R74). -/
def lineOf : List Char → List Nat → Option AsmLine
  | ['E', 'X', 'P', 'A', 'N', 'D'], [a] => some (.expand a)
  | ['C', 'O', 'N', 'F', 'U', 'S', 'E'], [a] => some (.confuse a)
  | ['F', 'E', 'I', 'S', 'T', 'E', 'L'], [a, k] => some (.feistel a k)
  | ['R', 'O', 'U', 'N', 'D'], [a, k] => some (.round a k)
  | ['R', 'O', 'U', 'N', 'D', 'F'], [a, k] => some (.roundf a k)
  | ['K', 'E', 'Y', 'G', 'E', 'N'], [a, n] => some (.keygen a n)
  | ['E', 'N', 'C', 'R', 'Y', 'P', 'T'], [a, n] => some (.encrypt a n)
  | ['D', 'E', 'C', 'R', 'Y', 'P', 'T'], [a, n] => some (.decrypt a n)
  | ['K', 'C', 'L', 'R'], [] => some .kclr
  | ['K', 'P', 'U', 'S', 'H'], [k] => some (.kpush k)
  | ['K', 'R', 'E', 'A', 'D'], [n] => some (.kread n)
  | ['.', 'w', 'o', 'r', 'd'], [w] => some (.word w)
  | _, _ => none

/-- The operands of a line: none, or numbers separated by commas. -/
def readOperands (t : List Char) : Option (List Nat) :=
  match trimBlanks t with
  | [] => some []
  | u => readNumbers (splitCommas u)

/-- One line of text that holds a command or a `.word`. -/
def parseLine (t : List Char) : Option AsmLine :=
  let u := trimBlanks (dropComment t)
  match readOperands (u.dropWhile (fun c => !isBlank c)) with
  | some ops => lineOf (u.takeWhile (fun c => !isBlank c)) ops
  | none => none

/-- The word a line of text assembles to; none where it is no line of R74 or an operand does not fit its field. -/
def assembleText (t : List Char) : Option CmdWord :=
  match parseLine t with
  | some l => l.assemble
  | none => none

/-- The words of a program, one line each, lines with nothing but blanks and a comment left out. -/
def assembleProgram : List (List Char) → Option (List CmdWord)
  | [] => some []
  | t :: ts =>
    if trimBlanks (dropComment t) = [] then assembleProgram ts
    else match assembleText t, assembleProgram ts with
      | some w, some ws => some (w :: ws)
      | _, _ => none

/-- A hex digit, upper case as the spec prints them. -/
def hexDigit (v : BitVec 4) : Char := if v.toNat < 10 then Char.ofNat (48 + v.toNat) else Char.ofNat (55 + v.toNat)

/-- A status's name (spec/30_encoding.md R71). -/
def statusName : Status → List Char
  | .ok => "OK".toList
  | .invalidRoundCount => "InvalidRoundCount".toList
  | .insufficientKeys => "InsufficientKeys".toList
  | .illegalCommand => "IllegalCommand".toList

/-- The status a code of ST stands for; "0x4..0xF" are "never produced" (spec/30_encoding.md R71). -/
def statusOf (st : BitVec 4) : Option Status :=
  match st.toNat with
  | 0x0 => some .ok
  | 0x1 => some .invalidRoundCount
  | 0x2 => some .insufficientKeys
  | 0x3 => some .illegalCommand
  | _ => none

/-- "A response is written `OK 0xhhh`, or the error's name" (R74); none for a status that is never produced. -/
def writeResponse (r : RspWord) : Option (List Char) :=
  match statusOf (rspST r) with
  | some .ok =>
    some (statusName .ok ++ [' ', '0', 'x', hexDigit ((rspRES r).extractLsb' 8 4), hexDigit ((rspRES r).extractLsb' 4 4),
      hexDigit ((rspRES r).extractLsb' 0 4)])
  | some e => some (statusName e)
  | none => none

end Sys2Proof.Machine
end

