-- ==== Sys2Proof/Machine/Reference.lean ====
section
/-! DEFINITION. The core as spec/10_state.md R32 puts it: "one value `keys`, a list of at most nine bytes", and "one function
`exec(keys, cmd) = (keys', rsp)`". It is a second description, over lists and without registers, against which the machine is
held; the machine does not use it. -/

namespace Sys2Proof.Machine

/-- The round-key sequence in the key store: entries 0..KLEN-1 (spec/10_state.md R21, R23). -/
def keysOf (s : State) : List RoundKey := s.rk.toList.take s.klen.val

/-- The rounds of a cipher call with the given keys in the order of use: the swapping round on all but the last, the final
round on the last, nothing for no keys (spec/43_cipher_driver.md R161, R162). -/
def cipherRounds : List RoundKey → Block → Block
  | [], b => b
  | [k], b => finalRound b k
  | k :: k' :: ks, b => cipherRounds (k' :: ks) (swapRound b k)

/-- `encrypt(b, keys, n)`: the first `n` keys in order (spec/43_cipher_driver.md R161). -/
def encryptBlock (keys : List RoundKey) (n : Nat) (b : Block) : Block := cipherRounds (keys.take n) b

/-- `decrypt(b, keys, n)`: the first `n` keys in reverse order (spec/43_cipher_driver.md R162). -/
def decryptBlock (keys : List RoundKey) (n : Nat) (b : Block) : Block := cipherRounds (keys.take n).reverse b

/-- `generate_round_keys(mk, n)` for an `n` in range (spec/42_key_schedule_and_store.md R143). -/
def scheduleKeys (mk : MasterKey) (n : Nat) : List RoundKey := (List.range n).map (roundKey mk)

/-- What one command makes of the key list, and its response (spec/10_state.md R32). -/
def refCommand (keys : List RoundKey) : Instr → List RoundKey × RspWord
  | .expand half => (keys, packRsp .ok ((expand half).setWidth 12))
  | .confuse val => (keys, packRsp .ok ((confuse val).setWidth 12))
  | .feistel half key => (keys, packRsp .ok ((feistel half key).setWidth 12))
  | .round block key => (keys, packRsp .ok (swapRound block key))
  | .roundf block key => (keys, packRsp .ok (finalRound block key))
  | .keygen mkey n =>
    if 9 < n.toNat then ([], packRsp .invalidRoundCount 0)
    else (scheduleKeys mkey n.toNat, packRsp .ok (.ofNat 12 n.toNat))
  | .encrypt block n =>
    if keys.length < n.toNat then (keys, packRsp .insufficientKeys 0)
    else (keys, packRsp .ok (encryptBlock keys n.toNat block))
  | .decrypt block n =>
    if keys.length < n.toNat then (keys, packRsp .insufficientKeys 0)
    else (keys, packRsp .ok (decryptBlock keys n.toNat block))
  | .kclr => ([], packRsp .ok 0)
  | .kpush key =>
    if keys.length = 9 then (keys, packRsp .invalidRoundCount 0)
    else (keys ++ [key], packRsp .ok (.ofNat 12 (keys.length + 1)))
  | .kread idx =>
    match keys[idx.toNat]? with
    | some k => (keys, packRsp .ok (k.setWidth 12))
    | none => (keys, packRsp .insufficientKeys 0)

/-- `exec(keys, cmd) = (keys', rsp)` of spec/10_state.md R32, total on all words. -/
def refExec (keys : List RoundKey) (w : CmdWord) : List RoundKey × RspWord :=
  match decode w with
  | .ok i => refCommand keys i
  | .error _ => (keys, packRsp .illegalCommand 0)

/-- The key list after a sequence of command words (spec/20_memory.md R47). -/
def refKeysAfter (keys : List RoundKey) (ws : List CmdWord) : List RoundKey :=
  ws.foldl (fun ks w => (refExec ks w).1) keys

end Sys2Proof.Machine
end

