-- ==== Sys2Proof/Safety.lean ====
section
/-! DEFINITION. The terms claims are made in: the invariant of the machine between steps, legal responses, what each kind of
command may change, and the hosts that keep the handshake. -/

namespace Sys2Proof.Machine

/-- A response word the core may give: ST is one of the four codes, "never produced: 0x4..0xF" (spec/30_encoding.md R71), and
"RES = 0 for every command" when ST is not OK (R72). -/
def legalResponse (r : RspWord) : Prop := (rspST r).toNat ≤ 3 ∧ (rspST r ≠ 0 → rspRES r = 0)

/-- The invariant between steps: BUSY is 1 exactly while a response is pending (every accepted command has run to its response,
log 2), and a pending response is a legal one. -/
def State.Inv (s : State) : Prop := s.busy = s.rspValid ∧ (s.rspValid = true → legalResponse s.rsp)

/-- Nothing but RSP and its valid signal differs. -/
def onlyResponseChanged (s t : State) : Prop := t = { s with rsp := t.rsp, rspValid := t.rspValid }

/-- Nothing but the key store, RSP and its valid signal differs. -/
def onlyKeysAndResponseChanged (s t : State) : Prop :=
  t = { s with rk := t.rk, klen := t.klen, rsp := t.rsp, rspValid := t.rspValid }

/-- Nothing but the driver's working registers (and the free-value counter), RSP and its valid signal differs. -/
def onlyDriverAndResponseChanged (s t : State) : Prop :=
  t = { s with blk := t.blk, ri := t.ri, nr := t.nr, dir := t.dir, busy := t.busy, draws := t.draws,
               rsp := t.rsp, rspValid := t.rspValid }

/-- The port is idle: no command in progress, no response pending, no word presented before. -/
def State.idle (s : State) : Prop := s.busy = false ∧ s.rspValid = false ∧ s.held = none

/-- Whether a host keeps the handshake (spec/70_reset_and_hazards.md R211; spec/93_implementation_defined.md U8) from a moment
at which it presents `held` and the core is busy or not: a word presented stays presented, unchanged, until it is accepted.
Reset frees the host of it (log 9). -/
def hostConforms : Option CmdWord → Bool → List HostPins → Bool
  | _, _, [] => true
  | held, busy, p :: ps =>
    if p.rst then hostConforms p.presented false ps
    else (decide (held = none) || decide (p.presented = held)) &&
      (if busy then hostConforms p.presented (!p.rspReady) ps
       else if p.cmdValid then hostConforms none true ps
       else hostConforms none false ps)

/-- The result a host reads from one command issued in a given state, if the command answers OK. -/
def okResult (i : Instr) (s : State) : Option ResultField :=
  match exec i s with
  | .next t => if rspST t.rsp = 0 then some (rspRES t.rsp) else none
  | .fault _ => none
  | .refused _ => none

/-- A host that issues one ROUND for every key but the last and one ROUNDF for the last, "feeding each result into the next"
(spec/41_round.md R127). -/
def rebuildFromRounds (s : State) : List RoundKey → Block → Option Block
  | [], b => some b
  | [k], b => okResult (.roundf b k) s
  | k :: k' :: ks, b =>
    match okResult (.round b k) s with
    | some c => rebuildFromRounds s (k' :: ks) c
    | none => none

end Sys2Proof.Machine
end

