-- ==== Sys2Proof/Certificates/Slice0/Obligations.lean ====
section
/-! DEFINITION. The statements for the provers, from the numbered rules of spec/. OBLIGATIONS.json lists them with the sentence
each one formalises. -/

open Sys2Proof Sys2Proof.Machine

/-! ### The commands: result, completion, frame, decoding and assembly of each -/

/-- EXPAND (R100, R102). In every state it completes; RES bit `j` is the half's bit given by R100's table (output bits 0 to 7 are
input bits 0, 1, 3, 2, 3, 2, 4, 5) and bits 11:8 are 0; nothing but RSP changes; words with OP = 0x1 decode to it, only
`A[5:0]` counting; `EXPAND a` assembles to `0x10000000 | (a << 8)`. -/
def Obligations.ExpandCommand : Prop :=
  (∀ (half : Half) (s : State), ∃ t, exec (.expand half) s = .next t ∧ t.rspValid = true ∧ rspST t.rsp = 0 ∧
    (∀ j, j < 12 → (rspRES t.rsp).getLsbD j =
      match ([0, 1, 3, 2, 3, 2, 4, 5] : List Nat)[j]? with
      | some i => half.getLsbD i
      | none => false) ∧
    onlyResponseChanged s t) ∧
  (∀ w : CmdWord, fieldOP w = 0x1 → decode w = .ok (.expand ((fieldA w).extractLsb' 0 6))) ∧
  (∀ a : Nat, a < 65536 → (AsmLine.expand a).assemble = some (0x10000000 ||| (BitVec.ofNat 32 a <<< 8)))

/-- CONFUSE (R104, R105, R107). In every state it completes with RES = S1[val[7:4]] * 8 + S2[val[3:0]], the boxes as R104 and R105
list them; nothing but RSP changes; its decoding and assembly. -/
def Obligations.ConfuseCommand : Prop :=
  (∀ (val : Expanded) (s : State), ∃ t, exec (.confuse val) s = .next t ∧ t.rspValid = true ∧ rspST t.rsp = 0 ∧
    (rspRES t.rsp).toNat =
      ([5, 2, 1, 6, 3, 4, 7, 0, 1, 4, 6, 2, 0, 7, 5, 3] : List Nat).getD (val.toNat / 16) 0 * 8 +
        ([4, 0, 6, 5, 7, 1, 3, 2, 5, 3, 0, 7, 6, 2, 1, 4] : List Nat).getD (val.toNat % 16) 0 ∧
    onlyResponseChanged s t) ∧
  (∀ w : CmdWord, fieldOP w = 0x2 → decode w = .ok (.confuse ((fieldA w).extractLsb' 0 8))) ∧
  (∀ a : Nat, a < 65536 → (AsmLine.confuse a).assemble = some (0x20000000 ||| (BitVec.ofNat 32 a <<< 8)))

/-- FEISTEL (R108, R109). In every state it completes with RES = confuse(expand(half) ^ key), bits 11:6 zero; the key comes from
the word; nothing but RSP changes; `feistel(h, expand(h))` is 0x2C for every `h`; its decoding and assembly. -/
def Obligations.FeistelCommand : Prop :=
  (∀ (half : Half) (key : RoundKey) (s : State), ∃ t, exec (.feistel half key) s = .next t ∧ t.rspValid = true ∧
    rspST t.rsp = 0 ∧ rspRES t.rsp = (confuse (expand half ^^^ key)).setWidth 12 ∧ onlyResponseChanged s t) ∧
  (∀ half : Half, feistel half (expand half) = 0x2C) ∧
  (∀ w : CmdWord, fieldOP w = 0x3 → decode w = .ok (.feistel ((fieldA w).extractLsb' 0 6) (fieldK w))) ∧
  (∀ a k : Nat, a < 65536 → k < 256 →
    (AsmLine.feistel a k).assemble = some (0x30000000 ||| (BitVec.ofNat 32 a <<< 8) ||| BitVec.ofNat 32 k))

/-- ROUND (R120, R121, R124). In every state it completes with RES = {R, L ^ feistel(R, key)} for L = block[11:6] and
R = block[5:0]; nothing but RSP changes; its decoding (OP = 0x4, bit 24 clear) and assembly. -/
def Obligations.RoundCommand : Prop :=
  (∀ (block : Block) (key : RoundKey) (s : State), ∃ t, exec (.round block key) s = .next t ∧ t.rspValid = true ∧
    rspST t.rsp = 0 ∧ (rspRES t.rsp).extractLsb' 6 6 = block.extractLsb' 0 6 ∧
    (rspRES t.rsp).extractLsb' 0 6 = block.extractLsb' 6 6 ^^^ feistel (block.extractLsb' 0 6) key ∧
    onlyResponseChanged s t) ∧
  (∀ w : CmdWord, fieldOP w = 0x4 → w.getLsbD 24 = false →
    decode w = .ok (.round ((fieldA w).extractLsb' 0 12) (fieldK w))) ∧
  (∀ a k : Nat, a < 65536 → k < 256 →
    (AsmLine.round a k).assemble = some (0x40000000 ||| (BitVec.ofNat 32 a <<< 8) ||| BitVec.ofNat 32 k))

/-- ROUNDF (R120, R122, R125). In every state it completes with RES = {L ^ feistel(R, key), R}; nothing but RSP changes; issued on
its own result with the same key it returns the original block; its decoding (OP = 0x4, bit 24 set) and assembly. -/
def Obligations.RoundfCommand : Prop :=
  (∀ (block : Block) (key : RoundKey) (s : State), ∃ t, exec (.roundf block key) s = .next t ∧ t.rspValid = true ∧
    rspST t.rsp = 0 ∧ (rspRES t.rsp).extractLsb' 0 6 = block.extractLsb' 0 6 ∧
    (rspRES t.rsp).extractLsb' 6 6 = block.extractLsb' 6 6 ^^^ feistel (block.extractLsb' 0 6) key ∧
    onlyResponseChanged s t ∧
    ∃ u, exec (.roundf (rspRES t.rsp) key) t = .next u ∧ rspST u.rsp = 0 ∧ rspRES u.rsp = block) ∧
  (∀ w : CmdWord, fieldOP w = 0x4 → w.getLsbD 24 = true →
    decode w = .ok (.roundf ((fieldA w).extractLsb' 0 12) (fieldK w))) ∧
  (∀ a k : Nat, a < 65536 → k < 256 →
    (AsmLine.roundf a k).assemble = some (0x41000000 ||| (BitVec.ofNat 32 a <<< 8) ||| BitVec.ofNat 32 k))

/-- KEYGEN (R144). For `n <= 9` it completes with `RK[i] = round_key(mkey, i)` for `i < n`, KLEN = n and RES = n; for `n` of 10 to
15 it answers InvalidRoundCount with RES = 0, KLEN = 0 and no key written; nothing else changes in either case; its decoding and
assembly. That the entries `i >= n` keep their content is the model's choice (log 8, DEDUCED, unsafe): R23 and U2 give such
entries any value, and no rule is cited for that clause. -/
def Obligations.KeygenCommand : Prop :=
  (∀ (mkey : MasterKey) (n : Count) (s : State), n.toNat ≤ 9 → ∃ t, exec (.keygen mkey n) s = .next t ∧
    t.rspValid = true ∧ rspST t.rsp = 0 ∧ (rspRES t.rsp).toNat = n.toNat ∧ t.klen.val = n.toNat ∧
    (∀ i, i < n.toNat → t.rk[i]? = some (roundKey mkey i)) ∧
    (∀ i, n.toNat ≤ i → t.rk[i]? = s.rk[i]?) ∧ onlyKeysAndResponseChanged s t) ∧
  (∀ (mkey : MasterKey) (n : Count) (s : State), 9 < n.toNat →
    exec (.keygen mkey n) s = .next { s with klen := 0, rsp := 0x1000, rspValid := true }) ∧
  (∀ w : CmdWord, fieldOP w = 0x5 → decode w = .ok (.keygen ((fieldA w).extractLsb' 0 9) (fieldN w))) ∧
  (∀ a n : Nat, a < 65536 → n < 16 →
    (AsmLine.keygen a n).assemble =
      some (0x50000000 ||| (BitVec.ofNat 32 n <<< 24) ||| (BitVec.ofNat 32 a <<< 8)))

/-- KCLR (R145). In every state it completes with KLEN = 0 and RES = 0; RK keeps its physical content and nothing else changes;
its decoding and assembly. -/
def Obligations.KclrCommand : Prop :=
  (∀ s : State, exec .kclr s = .next { s with klen := 0, rsp := 0x0000, rspValid := true }) ∧
  (∀ w : CmdWord, fieldOP w = 0x8 → decode w = .ok .kclr) ∧
  AsmLine.kclr.assemble = some 0x80000000

/-- KPUSH (R146). With KLEN below 9 it completes with `RK[KLEN] = key`, every other entry unchanged, KLEN one greater and RES the
new KLEN; with KLEN = 9 it answers InvalidRoundCount with RES = 0 and the store unchanged; nothing else changes in either case;
its decoding and assembly. -/
def Obligations.KpushCommand : Prop :=
  (∀ (key : RoundKey) (s : State), s.klen.val < 9 → ∃ t, exec (.kpush key) s = .next t ∧ t.rspValid = true ∧
    rspST t.rsp = 0 ∧ (rspRES t.rsp).toNat = s.klen.val + 1 ∧ t.klen.val = s.klen.val + 1 ∧
    t.rk[s.klen.val]? = some key ∧ (∀ i, i ≠ s.klen.val → t.rk[i]? = s.rk[i]?) ∧ onlyKeysAndResponseChanged s t) ∧
  (∀ (key : RoundKey) (s : State), s.klen.val = 9 →
    exec (.kpush key) s = .next { s with rsp := 0x1000, rspValid := true }) ∧
  (∀ w : CmdWord, fieldOP w = 0x9 → decode w = .ok (.kpush (fieldK w))) ∧
  (∀ k : Nat, k < 256 → (AsmLine.kpush k).assemble = some (0x90000000 ||| BitVec.ofNat 32 k))

/-- KREAD (R147). With `idx < KLEN` it completes with RES = `RK[idx]`; with `idx >= KLEN`, every `idx` of 9 to 15 among them, it
answers InsufficientKeys with RES = 0; nothing but RSP changes in either case; its decoding and assembly. -/
def Obligations.KreadCommand : Prop :=
  (∀ (idx : Count) (s : State), idx.toNat < s.klen.val → ∃ t, exec (.kread idx) s = .next t ∧ t.rspValid = true ∧
    rspST t.rsp = 0 ∧ s.rk[idx.toNat]? = some ((rspRES t.rsp).setWidth 8) ∧ (rspRES t.rsp).toNat < 256 ∧
    onlyResponseChanged s t) ∧
  (∀ (idx : Count) (s : State), s.klen.val ≤ idx.toNat →
    exec (.kread idx) s = .next { s with rsp := 0x2000, rspValid := true }) ∧
  (∀ (idx : Count) (s : State), 9 ≤ idx.toNat →
    exec (.kread idx) s = .next { s with rsp := 0x2000, rspValid := true }) ∧
  (∀ w : CmdWord, fieldOP w = 0xA → decode w = .ok (.kread (fieldN w))) ∧
  (∀ n : Nat, n < 16 → (AsmLine.kread n).assemble = some (0xA0000000 ||| (BitVec.ofNat 32 n <<< 24)))

/-- ENCRYPT (R160, R161). With `n <= KLEN` it completes with RES the block after `n` rounds with `RK[0]` to `RK[n-1]` in order, the
swapping round on all but the last and the final round on the last; with `n > KLEN` it answers InsufficientKeys with RES = 0;
the key store and everything but RSP and the driver's working registers is unchanged in either case; its decoding and
assembly. -/
def Obligations.EncryptCommand : Prop :=
  (∀ (block : Block) (n : Count) (s : State), n.toNat ≤ s.klen.val → ∃ t, exec (.encrypt block n) s = .next t ∧
    t.rspValid = true ∧ rspST t.rsp = 0 ∧
    rspRES t.rsp = cipherRounds (s.rk.toList.take n.toNat) block ∧ onlyDriverAndResponseChanged s t) ∧
  (∀ (block : Block) (n : Count) (s : State), s.klen.val < n.toNat → ∃ t, exec (.encrypt block n) s = .next t ∧
    t.rspValid = true ∧ t.rsp = 0x2000 ∧ onlyDriverAndResponseChanged s t) ∧
  (∀ w : CmdWord, fieldOP w = 0x6 → decode w = .ok (.encrypt ((fieldA w).extractLsb' 0 12) (fieldN w))) ∧
  (∀ a n : Nat, a < 65536 → n < 16 →
    (AsmLine.encrypt a n).assemble =
      some (0x60000000 ||| (BitVec.ofNat 32 n <<< 24) ||| (BitVec.ofNat 32 a <<< 8)))

/-- DECRYPT (R160, R162). As ENCRYPT, with the first `n` keys in reverse order, `RK[n-1]` first and `RK[0]` last. -/
def Obligations.DecryptCommand : Prop :=
  (∀ (block : Block) (n : Count) (s : State), n.toNat ≤ s.klen.val → ∃ t, exec (.decrypt block n) s = .next t ∧
    t.rspValid = true ∧ rspST t.rsp = 0 ∧
    rspRES t.rsp = cipherRounds (s.rk.toList.take n.toNat).reverse block ∧ onlyDriverAndResponseChanged s t) ∧
  (∀ (block : Block) (n : Count) (s : State), s.klen.val < n.toNat → ∃ t, exec (.decrypt block n) s = .next t ∧
    t.rspValid = true ∧ t.rsp = 0x2000 ∧ onlyDriverAndResponseChanged s t) ∧
  (∀ w : CmdWord, fieldOP w = 0x7 → decode w = .ok (.decrypt ((fieldA w).extractLsb' 0 12) (fieldN w))) ∧
  (∀ a n : Nat, a < 65536 → n < 16 →
    (AsmLine.decrypt a n).assemble =
      some (0x70000000 ||| (BitVec.ofNat 32 n <<< 24) ||| (BitVec.ofNat 32 a <<< 8)))

/-! ### The encoding -/

/-- Decoding a command's word gives that command back, every operand at every value (R60, R62, R64, R74). -/
def Obligations.DecodeInvertsEncode : Prop := ∀ i : Instr, decode (encode i) = .ok i

/-- The other direction: a word that decodes to a command is that command's word but for its ignored bits, which the assembler
writes as zero (R63, R74). -/
def Obligations.EncodeInvertsDecodeUpToIgnoredBits : Prop :=
  ∀ (w : CmdWord) (i : Instr), decode w = .ok i → encode i = w &&& i.usedBits

/-- Bits a command does not use change nothing (R63): two words that agree on the used bits of the command one of them decodes to
are the same command, an accepted word steps to the same state whatever its ignored bits are, and the assembler writes zero in
them. -/
def Obligations.IgnoredBitsChangeNothing : Prop :=
  (∀ (w w' : CmdWord) (i : Instr), decode w = .ok i → w' &&& i.usedBits = w &&& i.usedBits →
    decode w' = .ok i ∧
    ∀ (s : State) (p : HostPins) (rest : List HostPins), p.rst = false → p.cmdValid = true → s.idle →
      step { s with host := { p with cmd := w' } :: rest } = step { s with host := { p with cmd := w } :: rest }) ∧
  (∀ i : Instr, encode i &&& ~~~ i.usedBits = 0)

/-- The rows of the opcode map are disjoint and, with the reserved opcodes, cover all words, and a word decodes to the command of a
row exactly when `w & mask == match` (R64). -/
def Obligations.OpcodeMapIsTotalAndUnambiguous : Prop :=
  ∀ w : CmdWord,
    (∀ r ∈ opcodeTable, (r.selects w = true ↔ ∃ i, decode w = .ok i ∧ i.mnemonic = r.mnemonic)) ∧
    (∀ r ∈ opcodeTable, ∀ r' ∈ opcodeTable, r.selects w = true → r'.selects w = true → r = r') ∧
    ((∃ r ∈ opcodeTable, r.selects w = true) ↔ reservedOpcode (fieldOP w) = false) ∧
    (reservedOpcode (fieldOP w) = true ↔ decode w = .error (.reservedOpcode (fieldOP w)))

/-- `cmd = (OP << 28) | (N << 24) | (A << 8) | K`: a word of four fields is that number, its fields are those four, and every word
is the word of its fields (R60). -/
def Obligations.CommandWordLayout : Prop :=
  (∀ (op n : BitVec 4) (a : BitVec 16) (k : BitVec 8),
    mkWord op n a k =
      (op.setWidth 32 <<< 28) ||| (n.setWidth 32 <<< 24) ||| (a.setWidth 32 <<< 8) ||| k.setWidth 32) ∧
  (∀ w : CmdWord, w.toNat =
    (fieldOP w).toNat * 2 ^ 28 + (fieldN w).toNat * 2 ^ 24 + (fieldA w).toNat * 2 ^ 8 + (fieldK w).toNat)

/-- Assembling the disassembly of a word gives a word of the same meaning: it decodes alike, and a reserved word comes back as it
was (R74: "ignored bits are not printed, so assembling a disassembly may not reproduce them"). -/
def Obligations.AssembleDisassembly : Prop :=
  ∀ w : CmdWord, ∃ w', (disassemble w).assemble = some w' ∧ decode w' = decode w ∧
    (reservedOpcode (fieldOP w) = true → w' = w)

/-- Sanity: seven words written out from R64's encodings decode to what they stand for. -/
def Obligations.SampleWordsDecode : Prop :=
  decode 0b00010000000000000011010100000000 = .ok (.expand 0x35) ∧
  decode 0b00110000000000000010010100111011 = .ok (.feistel 0x25 0x3B) ∧
  decode 0b01000000000011010110010100111011 = .ok (.round 0xD65 0x3B) ∧
  decode 0b01000001000011010110010100111011 = .ok (.roundf 0xD65 0x3B) ∧
  decode 0b01010100000000010011101100000000 = .ok (.keygen 0x13B 4) ∧
  decode 0b01100010000010001011010100000000 = .ok (.encrypt 0x8B5 2) ∧
  decode 0b10100010000000000000000000000000 = .ok (.kread 2)

/-- `rsp = (ST << 12) | RES`, with the codes 0x0 to 0x3 of the four statuses (R70, R71). -/
def Obligations.ResponseWordLayout : Prop :=
  (∀ (st : Status) (res : ResultField),
    packRsp st res = ((statusCode st).setWidth 16 <<< 12) ||| res.setWidth 16) ∧
  statusCode .ok = 0x0 ∧ statusCode .invalidRoundCount = 0x1 ∧ statusCode .insufficientKeys = 0x2 ∧
  statusCode .illegalCommand = 0x3

/-! ### The datapath -/

/-- `expand` is linear over exclusive or, injective with the given inverse, and its image is the values `e` with `e[5] == e[3]` and
`e[4] == e[2]` (R101). -/
def Obligations.ExpandLinearAndInjective : Prop :=
  (∀ a b : Half, expand (a ^^^ b) = expand a ^^^ expand b) ∧
  (∀ (h : Half) (j : Nat), j < 6 → h.getLsbD j =
    (expand h).getLsbD (([0, 1, 5, 4, 6, 7] : List Nat).getD j 0)) ∧
  (∀ e : Expanded, (∃ h, expand h = e) ↔ (e.getLsbD 5 = e.getLsbD 3 ∧ e.getLsbD 4 = e.getLsbD 2)) ∧
  expand 0x00 = 0x00 ∧ expand 0x3F = 0xFF

/-- "each of the eight values 0..7 occurs exactly twice in each box" (R103). -/
def Obligations.SboxesTakeEachValueTwice : Prop :=
  ∀ v : SboxValue,
    (((List.range 16).map (BitVec.ofNat 4)).filter (fun i => s1 i == v)).length = 2 ∧
    (((List.range 16).map (BitVec.ofNat 4)).filter (fun i => s2 i == v)).length = 2

/-- `confuse` maps 256 inputs onto 64 outputs, "each output reached by exactly four inputs" (R106). -/
def Obligations.ConfuseIsFourToOne : Prop :=
  ∀ y : Half, (((List.range 256).map (BitVec.ofNat 8)).filter (fun v => confuse v == y)).length = 4

/-- `roundf(B, k) = swap(round(B, k))` and `round(B, k) = swap(roundf(B, k))` (R123). -/
def Obligations.RoundVariantsDifferBySwap : Prop :=
  ∀ (b : Block) (k : RoundKey),
    finalRound b k = swapHalves (swapRound b k) ∧ swapRound b k = swapHalves (finalRound b k)

/-- `roundf` with a fixed key is an involution; `round` with a fixed key is a bijection: from an output {X, Y} the block is
R = X, L = Y ^ feistel(X, k), which is `roundf(swap(B), k)`; `swap(swap(B)) = B`. R126 also prints that inverse as
`swap(roundf(swap(B), k))`, which contradicts its own {X, Y} form: the last clause says that the printed form is no inverse
(log 16). -/
def Obligations.RoundsAreInvertible : Prop :=
  (∀ (b : Block) (k : RoundKey), finalRound (finalRound b k) k = b) ∧
  (∀ (b : Block) (k : RoundKey), rightHalf b = leftHalf (swapRound b k) ∧
    leftHalf b = rightHalf (swapRound b k) ^^^ feistel (leftHalf (swapRound b k)) k) ∧
  (∀ (b : Block) (k : RoundKey), finalRound (swapHalves (swapRound b k)) k = b ∧
    swapRound (finalRound (swapHalves b) k) k = b) ∧
  (∀ b : Block, swapHalves (swapHalves b) = b) ∧
  (∃ (b : Block) (k : RoundKey), swapHalves (finalRound (swapHalves (swapRound b k)) k) ≠ b)

/-- The key field is the key read cyclically, `((mk << 7) | (mk >> 2)) & 0xFFFF` (R140), and round key `i` is its bits 15-i..8-i
(R141). -/
def Obligations.RoundKeyIsWindowOfRotatedKey : Prop :=
  (∀ mk : MasterKey, rot16 mk = (mk.setWidth 16 <<< 7) ||| (mk.setWidth 16 >>> 2)) ∧
  (∀ (mk : MasterKey) (j : Nat), j < 16 → (rot16 mk).getLsbD j =
    mk.getLsbD (([2, 3, 4, 5, 6, 7, 8, 0, 1, 2, 3, 4, 5, 6, 7, 8] : List Nat).getD j 0)) ∧
  (∀ (mk : MasterKey) (i j : Nat), i ≤ 8 → j < 8 → (roundKey mk i).getLsbD j = (rot16 mk).getLsbD (8 - i + j))

/-- Bit `j` of `round_key(mk, i)` is key bit `(1 - i + j) mod 9`, and the key bit `mk[(0-i) mod 9]` is left out: it does not matter
(R142). -/
def Obligations.RoundKeyBitsAreCyclic : Prop :=
  (∀ (mk : MasterKey) (i j : Nat), i ≤ 8 → j < 8 → (roundKey mk i).getLsbD j = mk.getLsbD ((10 + j - i) % 9)) ∧
  (∀ (mk mk' : MasterKey) (i : Nat), i ≤ 8 →
    (∀ b, b < 9 → b ≠ (9 - i) % 9 → mk.getLsbD b = mk'.getLsbD b) → roundKey mk i = roundKey mk' i)

/-- The closed form: a cipher call with keys `k_0 .. k_m` is G . s . G . s ... with G the final round and `s` the swap, one swap
between every two rounds (R167). -/
def Obligations.CipherRoundsClosedForm : Prop :=
  ∀ (k : RoundKey) (ks : List RoundKey) (b : Block),
    cipherRounds (k :: ks) b = ks.foldl (fun c k' => finalRound (swapHalves c) k') (finalRound b k)

/-! ### The cipher commands together -/

/-- Invertibility (R164): for every key store and every `n <= KLEN`, DECRYPT issued on the result of ENCRYPT answers OK with the
original block, and ENCRYPT undoes DECRYPT. -/
def Obligations.EncryptAndDecryptAreInverse : Prop :=
  ∀ (b : Block) (n : Count) (s : State), n.toNat ≤ s.klen.val →
    (∃ t u, exec (.encrypt b n) s = .next t ∧ rspST t.rsp = 0 ∧
      exec (.decrypt (rspRES t.rsp) n) t = .next u ∧ rspST u.rsp = 0 ∧ rspRES u.rsp = b) ∧
    (∃ t u, exec (.decrypt b n) s = .next t ∧ rspST t.rsp = 0 ∧
      exec (.encrypt (rspRES t.rsp) n) t = .next u ∧ rspST u.rsp = 0 ∧ rspRES u.rsp = b)

/-- Zero-round identity (R163): whatever the key store holds, an empty store among them, ENCRYPT and DECRYPT with `n = 0` answer OK
with the block itself. -/
def Obligations.ZeroRoundsReturnTheBlock : Prop :=
  ∀ (b : Block) (s : State),
    (∃ t, exec (.encrypt b 0) s = .next t ∧ rspST t.rsp = 0 ∧ rspRES t.rsp = b) ∧
    (∃ t, exec (.decrypt b 0) s = .next t ∧ rspST t.rsp = 0 ∧ rspRES t.rsp = b)

/-- A KPUSH between an ENCRYPT and the DECRYPT meant to undo it does not change what the DECRYPT computes (R207). -/
def Obligations.PushBetweenKeepsInverse : Prop :=
  ∀ (b : Block) (n : Count) (key : RoundKey) (s : State), n.toNat ≤ s.klen.val →
    ∃ t u v, exec (.encrypt b n) s = .next t ∧ exec (.kpush key) t = .next u ∧
      exec (.decrypt (rspRES t.rsp) n) u = .next v ∧ rspST v.rsp = 0 ∧ rspRES v.rsp = b

/-- A host reproduces `ENCRYPT a, n` for `n >= 1` by `n-1` ROUND commands and one ROUNDF with the keys in order (R127), and
`DECRYPT a, n` the same way with the keys reversed. -/
def Obligations.EncryptRebuiltFromSingleRounds : Prop :=
  ∀ (b : Block) (n : Count) (s : State), 1 ≤ n.toNat → n.toNat ≤ s.klen.val →
    rebuildFromRounds s (s.rk.toList.take n.toNat) b = okResult (.encrypt b n) s ∧
    rebuildFromRounds s (s.rk.toList.take n.toNat).reverse b = okResult (.decrypt b n) s

/-- After a failed KEYGEN the old keys are gone: ENCRYPT and DECRYPT with `n >= 1`, and every KREAD, answer InsufficientKeys, not a
result under stale keys (R191, R208). -/
def Obligations.FailedKeygenDiscardsKeys : Prop :=
  ∀ (mk : MasterKey) (m : Count) (s : State), 9 < m.toNat → ∃ t, exec (.keygen mk m) s = .next t ∧
    (∀ (b : Block) (n : Count), 1 ≤ n.toNat →
      (∃ u, exec (.encrypt b n) t = .next u ∧ u.rsp = 0x2000) ∧
      (∃ u, exec (.decrypt b n) t = .next u ∧ u.rsp = 0x2000)) ∧
    (∀ idx : Count, ∃ u, exec (.kread idx) t = .next u ∧ u.rsp = 0x2000)

/-- A generated sequence extended by hand with the next round key is the longer generated sequence (R143, R146). -/
def Obligations.PushingTheNextRoundKeyExtendsTheSchedule : Prop :=
  ∀ (mk : MasterKey) (n : Count) (s : State), n.toNat < 9 →
    ∃ t u v, exec (.keygen mk n) s = .next t ∧ exec (.kpush (roundKey mk n.toNat)) t = .next u ∧
      exec (.keygen mk (n + 1)) s = .next v ∧ keysOf u = keysOf v ∧ keysOf v = scheduleKeys mk (n.toNat + 1)

/-- Keys generated by KEYGEN, `n <= m` of them used: the round trip the source states for generated sequences (R164, R203). -/
def Obligations.GeneratedKeysRoundTrip : Prop :=
  ∀ (mk : MasterKey) (m n : Count) (b : Block) (s : State), n.toNat ≤ m.toNat → m.toNat ≤ 9 →
    ∃ t u v, exec (.keygen mk m) s = .next t ∧ exec (.encrypt b n) t = .next u ∧
      rspRES u.rsp = encryptBlock (scheduleKeys mk m.toNat) n.toNat b ∧
      exec (.decrypt (rspRES u.rsp) n) u = .next v ∧ rspRES v.rsp = b

/-! ### Errors -/

/-- The complete list of (command, error) pairs, and the commands that never raise an error (R184): whatever the state, the status
of each command is one of those listed. -/
def Obligations.CommandsRaiseOnlyTheirErrors : Prop :=
  ∀ (w : CmdWord) (s : State), ∃ t, runWord w s = .next t ∧
    match decode w with
    | .ok (.keygen _ _) => rspST t.rsp = 0 ∨ rspST t.rsp = 1
    | .ok (.kpush _) => rspST t.rsp = 0 ∨ rspST t.rsp = 1
    | .ok (.encrypt _ _) => rspST t.rsp = 0 ∨ rspST t.rsp = 2
    | .ok (.decrypt _ _) => rspST t.rsp = 0 ∨ rspST t.rsp = 2
    | .ok (.kread _) => rspST t.rsp = 0 ∨ rspST t.rsp = 2
    | .ok _ => rspST t.rsp = 0
    | .error _ => rspST t.rsp = 3

/-- An error has no partial effect (R185): whatever word is run, if its response's ST is not OK then RES = 0 and the key store is
unchanged, except that after a KEYGEN KLEN is 0 and RK unchanged. -/
def Obligations.ErrorsHaveNoPartialEffect : Prop :=
  ∀ (w : CmdWord) (s t : State), runWord w s = .next t → rspST t.rsp ≠ 0 →
    rspRES t.rsp = 0 ∧ t.rk = s.rk ∧
    t.klen = (match decode w with
      | .ok (.keygen _ _) => 0
      | _ => s.klen)

/-- A reserved word, accepted, changes no state and answers IllegalCommand with RES = 0 (R65, R183). -/
def Obligations.ReservedWordAnswersIllegalCommand : Prop :=
  ∀ (s : State) (p : HostPins) (rest : List HostPins), s.host = p :: rest → s.idle → p.rst = false → p.cmdValid = true →
    ((fieldOP p.cmd).toNat = 0 ∨ 11 ≤ (fieldOP p.cmd).toNat) →
    step s = .next { s with host := rest, busy := true, rsp := 0x3000, rspValid := true }

/-! ### The step, the ports and reset -/

/-- A step runs the decoded command: with a word presented to a core ready for it, step is exec of the command the word decodes to,
the sample consumed and BUSY set. -/
def Obligations.StepRunsDecodedCommand : Prop :=
  (∀ (s : State) (p : HostPins) (rest : List HostPins) (i : Instr), s.host = p :: rest → p.rst = false →
    p.cmdValid = true → s.busy = false → s.rspValid = false → (s.held = none ∨ s.held = some p.cmd) →
    decode p.cmd = .ok i → step s = exec i { s with host := rest, busy := true, held := none }) ∧
  (∀ (s : State) (nbits w : Nat) (i : Instr), decodeTableWord nbits w = some i →
    step (s.withFetchWord nbits w) = exec i { s with busy := true, rspValid := false, held := none })

/-- Every accepted word, absent reset, is answered: after the step that accepts it a legal response is valid on the port, and
`cmd_ready` is 0 (R69, R209; in the model after one step, log 2). -/
def Obligations.AcceptedWordIsAnswered : Prop :=
  ∀ (s : State) (p : HostPins) (rest : List HostPins), s.host = p :: rest → s.idle → p.rst = false → p.cmdValid = true →
    ∃ t, step s = .next t ∧ rspValidOut false t = true ∧ legalResponse (rspOut t) ∧ cmdReady false t = false ∧
      t.host = rest

/-- `rsp` and `rsp_valid` hold until the host takes the response, all other state unchanged for any wait; taking it gives
`rsp_valid` 0 and `cmd_ready` 1 and keeps the key store (R69, R211). -/
def Obligations.ResponseHeldUntilTaken : Prop :=
  ∀ (s : State) (p : HostPins) (rest : List HostPins), s.host = p :: rest → s.busy = true → s.rspValid = true →
    p.rst = false → (s.held = none ∨ s.held = p.presented) →
    (p.rspReady = false → step s = .next { s with host := rest, held := p.presented }) ∧
    (p.rspReady = true → ∃ t, step s = .next t ∧ rspValidOut false t = false ∧ cmdReady false t = true ∧
      t.rk = s.rk ∧ t.klen = s.klen ∧ t.host = rest)

/-- No command is accepted while one is in progress or its response pending: until reset, the key store cannot change (R47, R49,
R205). -/
def Obligations.BusyCoreKeepsKeyStore : Prop :=
  ∀ (s t : State) (p : HostPins) (rest : List HostPins), s.host = p :: rest → s.busy = true → p.rst = false →
    (∀ w, portEvent p s ≠ .accept w) ∧ (step s = .next t → t.rk = s.rk ∧ t.klen = s.klen)

/-- Reset, from any state and with any other pins: KLEN = 0, BUSY = 0, no response pending (a pending one is withdrawn), ready for a
command once `rst` is 0 (R200, R202). -/
def Obligations.ResetFromAnyState : Prop :=
  ∀ (s : State) (p : HostPins) (rest : List HostPins), s.host = p :: rest → p.rst = true →
    ∃ t, step s = .next t ∧ t.klen = 0 ∧ t.busy = false ∧ t.rspValid = false ∧ keysOf t = [] ∧ t.host = rest ∧
      rspValidOut false t = false ∧ cmdReady false t = true

/-- While `rst` is 1, `cmd_ready` and `rsp_valid` are 0, no command is accepted and no response is taken (R201). -/
def Obligations.NothingOnThePortsDuringReset : Prop :=
  ∀ s : State, cmdReady true s = false ∧ rspValidOut true s = false ∧
    ∀ p : HostPins, p.rst = true → portEvent p s = .reset

/-- The reset state: KLEN = 0, BUSY = 0, no response pending, the port not valid and the core ready (R30). -/
def Obligations.ResetStateIsEmptyAndReady : Prop :=
  State.reset.klen = 0 ∧ State.reset.busy = false ∧ State.reset.rspValid = false ∧ keysOf State.reset = [] ∧
    cmdReady false State.reset = true ∧ rspValidOut false State.reset = false

/-- KLEN changes only by the events R22 lists: KEYGEN sets it to `n` or, failing, to 0, KCLR to 0, a successful KPUSH to KLEN + 1,
reset to 0; no other event changes it. The host can test it without changing it: `KREAD i` answers OK exactly when `i < KLEN`,
`ENCRYPT a, n` exactly when `n <= KLEN`. -/
def Obligations.KlenChangesOnlyByItsEvents : Prop :=
  (∀ s : State, s.klen.val ≤ 9) ∧
  (∀ (idx : Count) (s : State), ∃ t, exec (.kread idx) s = .next t ∧ t.klen = s.klen ∧
    (rspST t.rsp = 0 ↔ idx.toNat < s.klen.val)) ∧
  (∀ (b : Block) (n : Count) (s : State), ∃ t, exec (.encrypt b n) s = .next t ∧ t.klen = s.klen ∧
    (rspST t.rsp = 0 ↔ n.toNat ≤ s.klen.val)) ∧
  ∀ (s t : State) (p : HostPins) (rest : List HostPins), s.host = p :: rest → step s = .next t →
    t.klen.val =
      match portEvent p s with
      | .reset => 0
      | .accept w =>
        match decode w with
        | .ok (.keygen _ n) => if n.toNat ≤ 9 then n.toNat else 0
        | .ok .kclr => 0
        | .ok (.kpush _) => if s.klen.val < 9 then s.klen.val + 1 else s.klen.val
        | _ => s.klen.val
      | _ => s.klen.val

/-- "No command other than KEYGEN, KCLR and KPUSH (and reset) changes the key store", also when it raises an error, "and so does a
reserved command word" (R148): a step whose accepted word, if any, is none of the three leaves RK and KLEN as they were. -/
def Obligations.KeyStoreWrittenOnlyByKeyCommands : Prop :=
  ∀ (s t : State) (p : HostPins) (rest : List HostPins), s.host = p :: rest → p.rst = false → step s = .next t →
    (t.rk = s.rk ∧ t.klen = s.klen) ∨
    ∃ w i, portEvent p s = .accept w ∧ decode w = .ok i ∧ i.mnemonic ∈ ["KEYGEN", "KCLR", "KPUSH"]

/-- The model refuses a run exactly where the host breaks the handshake by dropping or changing a word before its acceptance
(spec/93_implementation_defined.md U8); it never faults. -/
def Obligations.OnlyBrokenHandshakeIsRefused : Prop :=
  ∀ (s : State) (p : HostPins) (rest : List HostPins), s.host = p :: rest →
    (step s = .refused .hostDroppedCommand ↔
      p.rst = false ∧ p.cmdValid = false ∧ s.held ≠ none) ∧
    (step s = .refused .hostChangedCommand ↔
      p.rst = false ∧ p.cmdValid = true ∧ ∃ w, s.held = some w ∧ w ≠ p.cmd) ∧
    (∀ r, step s = .refused r → r = .hostDroppedCommand ∨ r = .hostChangedCommand)

/-! ### Whole-machine statements -/

/-- The invariant holds at reset: BUSY is 0 and no response is pending (R30). That BUSY and a pending response go together in
every state of the invariant is the model's choice (log 2). -/
def Obligations.ResetMeetsTheInvariant : Prop := State.reset.Inv

/-- Every step keeps the invariant: BUSY is 1 exactly while a response is pending, and a pending response has one of the four
status codes (R71), with RES = 0 unless it is OK (R72). The clause on BUSY is the model's choice (log 2, DESIGN CHOICE, unsafe):
R69 has cycles with BUSY = 1 and no valid response, between acceptance and `rsp_valid`, which no step of the model stands for;
no rule is cited for it. -/
def Obligations.StepKeepsTheInvariant : Prop := ∀ s t : State, s.Inv → step s = .next t → t.Inv

/-- "the response to a command and the key store after it are a function of the command word and the key store before it, and of
nothing else (not of time, of earlier responses, of working registers or of the reset history)" (R10): two states with the same
key sequence, whatever else they hold and whatever their entries at or beyond KLEN hold, give the same response and the same key
sequence for every command word. -/
def Obligations.ResponseDependsOnWordAndKeysOnly : Prop :=
  ∀ (w : CmdWord) (s s' : State), keysOf s = keysOf s' →
    ∃ t t', runWord w s = .next t ∧ runWord w s' = .next t' ∧ t.rsp = t'.rsp ∧ keysOf t = keysOf t'

/-- The machine with its registers, its driver loop and its ports is the function `exec(keys, cmd) = (keys', rsp)` over key lists
(R32): the step that accepts a word leaves the key list and the response that function gives. -/
def Obligations.MachineRefinesKeyListFunction : Prop :=
  ∀ (s : State) (p : HostPins) (rest : List HostPins) (w : CmdWord), s.host = p :: rest → portEvent p s = .accept w →
    ∃ t, step s = .next t ∧ t.rspValid = true ∧ (keysOf t, t.rsp) = refExec (keysOf s) w

/-- Any sequence of command words, each issued after the previous response was taken, runs to its end from any idle state, and the
key list and every response are those of the key-list function applied word by word, in order (R32, R47). That each command takes
two steps, one that accepts and answers it and one that takes its response, is the model's choice (log 2). -/
def Obligations.CommandSequenceFollowsKeyListFunction : Prop :=
  ∀ (ws : List CmdWord) (s : State), s.idle → s.host = programPins ws →
    (∃ t, Host.Core.run core (2 * ws.length) s = .next t ∧ t.idle ∧ keysOf t = refKeysAfter (keysOf s) ws) ∧
    (∀ (k : Nat) (w : CmdWord), ws[k]? = some w →
      ∃ t : State, Host.Core.run core (2 * k + 1) s = .next t ∧ t.rspValid = true ∧
        t.rsp = (refExec (refKeysAfter (keysOf s) (ws.take k)) w).2)

/-- A host that keeps the handshake is never refused and the machine never stops: from any state in which BUSY is 1 exactly while a
response is pending (the model's choice, log 2), a run of any length under any conforming host answers a next state. -/
def Obligations.ConformingHostIsNeverRefused : Prop :=
  ∀ (k : Nat) (s : State), s.busy = s.rspValid → hostConforms s.held s.busy s.host = true →
    ∃ t : State, Host.Core.run core k s = .next t
end

