-- ==== Sys2Proof/Laws/Decode.lean ====
section
/-! SUPPORT. What the fields of a word built by `mkWord` are (spec/30_encoding.md R60), and how the decoder reads a word by its
opcode (R67). -/

namespace Sys2Proof.Machine

@[simp] theorem fieldOP_mkWord (op n : BitVec 4) (a : BitVec 16) (k : BitVec 8) : fieldOP (mkWord op n a k) = op := by
  apply BitVec.eq_of_getLsbD_eq
  intro i hi
  simp only [fieldOP, mkWord, BitVec.getLsbD_extractLsb', BitVec.getLsbD_append]
  simp [hi, show ¬ (28 + i < 8) by omega, show ¬ (28 + i - 8 < 16) by omega, show ¬ (28 + i - 8 - 16 < 4) by omega,
    show 28 + i - 8 - 16 - 4 = i by omega]

@[simp] theorem fieldN_mkWord (op n : BitVec 4) (a : BitVec 16) (k : BitVec 8) : fieldN (mkWord op n a k) = n := by
  apply BitVec.eq_of_getLsbD_eq
  intro i hi
  simp only [fieldN, mkWord, BitVec.getLsbD_extractLsb', BitVec.getLsbD_append]
  simp [hi, show ¬ (24 + i < 8) by omega, show ¬ (24 + i - 8 < 16) by omega,
    show 24 + i - 8 - 16 = i by omega]

@[simp] theorem fieldA_mkWord (op n : BitVec 4) (a : BitVec 16) (k : BitVec 8) : fieldA (mkWord op n a k) = a := by
  apply BitVec.eq_of_getLsbD_eq
  intro i hi
  simp only [fieldA, mkWord, BitVec.getLsbD_extractLsb', BitVec.getLsbD_append]
  simp [hi, show ¬ (8 + i < 8) by omega, show 8 + i - 8 = i by omega]

@[simp] theorem fieldK_mkWord (op n : BitVec 4) (a : BitVec 16) (k : BitVec 8) : fieldK (mkWord op n a k) = k := by
  apply BitVec.eq_of_getLsbD_eq
  intro i hi
  simp only [fieldK, mkWord, BitVec.getLsbD_extractLsb', BitVec.getLsbD_append]
  simp [hi]

/-- A word is the concatenation of its four fields (spec/30_encoding.md R60). -/
theorem mkWord_fields (w : CmdWord) : mkWord (fieldOP w) (fieldN w) (fieldA w) (fieldK w) = w := by
  apply BitVec.eq_of_getLsbD_eq
  intro i hi
  simp only [fieldOP, fieldN, fieldA, fieldK, mkWord, BitVec.getLsbD_extractLsb', BitVec.getLsbD_append]
  by_cases h1 : i < 8
  · simp [h1]
  · by_cases h2 : i - 8 < 16
    · simp [h1, h2, show 8 + (i - 8) = i by omega]
    · by_cases h3 : i - 8 - 16 < 4
      · simp [h1, h2, h3, show 24 + (i - 8 - 16) = i by omega]
      · simp [h1, h2, h3, show 28 + (i - 8 - 16 - 4) = i by omega, show i - 8 - 16 - 4 < 4 by omega]

/-- An operand placed in the low bits of A is read back from them (spec/30_encoding.md R62, R74). -/
theorem extract_setWidth {n : Nat} (x : BitVec n) (h : n ≤ 16) : (x.setWidth 16).extractLsb' 0 n = x := by
  apply BitVec.eq_of_getLsbD_eq
  intro i hi
  simp [hi, show i < 16 by omega]

end Sys2Proof.Machine
end

