-- ==== Sys2Proof/Laws/State.lean ====
section
/-! SUPPORT. One lemma per field and shared operation: what the operation leaves in that field. With them no later proof unfolds
a record update. -/

namespace Sys2Proof.Machine

@[simp] theorem keyWrite_rk (i : Nat) (v : RoundKey) (s : State) : (keyWrite i v s).rk = s.rk.setIfInBounds i v := rfl
@[simp] theorem keyWrite_klen (i : Nat) (v : RoundKey) (s : State) : (keyWrite i v s).klen = s.klen := rfl
@[simp] theorem keyWrite_rsp (i : Nat) (v : RoundKey) (s : State) : (keyWrite i v s).rsp = s.rsp := rfl
@[simp] theorem keyWrite_rspValid (i : Nat) (v : RoundKey) (s : State) : (keyWrite i v s).rspValid = s.rspValid := rfl
@[simp] theorem keyWrite_blk (i : Nat) (v : RoundKey) (s : State) : (keyWrite i v s).blk = s.blk := rfl
@[simp] theorem keyWrite_ri (i : Nat) (v : RoundKey) (s : State) : (keyWrite i v s).ri = s.ri := rfl
@[simp] theorem keyWrite_nr (i : Nat) (v : RoundKey) (s : State) : (keyWrite i v s).nr = s.nr := rfl
@[simp] theorem keyWrite_dir (i : Nat) (v : RoundKey) (s : State) : (keyWrite i v s).dir = s.dir := rfl
@[simp] theorem keyWrite_busy (i : Nat) (v : RoundKey) (s : State) : (keyWrite i v s).busy = s.busy := rfl
@[simp] theorem keyWrite_held (i : Nat) (v : RoundKey) (s : State) : (keyWrite i v s).held = s.held := rfl
@[simp] theorem keyWrite_host (i : Nat) (v : RoundKey) (s : State) : (keyWrite i v s).host = s.host := rfl
@[simp] theorem keyWrite_draws (i : Nat) (v : RoundKey) (s : State) : (keyWrite i v s).draws = s.draws := rfl

@[simp] theorem setKlen_rk (n : Fin 10) (s : State) : (setKlen n s).rk = s.rk := rfl
@[simp] theorem setKlen_klen (n : Fin 10) (s : State) : (setKlen n s).klen = n := rfl
@[simp] theorem setKlen_rsp (n : Fin 10) (s : State) : (setKlen n s).rsp = s.rsp := rfl
@[simp] theorem setKlen_rspValid (n : Fin 10) (s : State) : (setKlen n s).rspValid = s.rspValid := rfl
@[simp] theorem setKlen_blk (n : Fin 10) (s : State) : (setKlen n s).blk = s.blk := rfl
@[simp] theorem setKlen_ri (n : Fin 10) (s : State) : (setKlen n s).ri = s.ri := rfl
@[simp] theorem setKlen_nr (n : Fin 10) (s : State) : (setKlen n s).nr = s.nr := rfl
@[simp] theorem setKlen_dir (n : Fin 10) (s : State) : (setKlen n s).dir = s.dir := rfl
@[simp] theorem setKlen_busy (n : Fin 10) (s : State) : (setKlen n s).busy = s.busy := rfl
@[simp] theorem setKlen_held (n : Fin 10) (s : State) : (setKlen n s).held = s.held := rfl
@[simp] theorem setKlen_host (n : Fin 10) (s : State) : (setKlen n s).host = s.host := rfl
@[simp] theorem setKlen_draws (n : Fin 10) (s : State) : (setKlen n s).draws = s.draws := rfl

@[simp] theorem respond_rk (st : Status) (res : ResultField) (s : State) : (respond st res s).rk = s.rk := rfl
@[simp] theorem respond_klen (st : Status) (res : ResultField) (s : State) : (respond st res s).klen = s.klen := rfl
@[simp] theorem respond_rsp (st : Status) (res : ResultField) (s : State) : (respond st res s).rsp = packRsp st res := rfl
@[simp] theorem respond_rspValid (st : Status) (res : ResultField) (s : State) : (respond st res s).rspValid = true := rfl
@[simp] theorem respond_blk (st : Status) (res : ResultField) (s : State) : (respond st res s).blk = s.blk := rfl
@[simp] theorem respond_ri (st : Status) (res : ResultField) (s : State) : (respond st res s).ri = s.ri := rfl
@[simp] theorem respond_nr (st : Status) (res : ResultField) (s : State) : (respond st res s).nr = s.nr := rfl
@[simp] theorem respond_dir (st : Status) (res : ResultField) (s : State) : (respond st res s).dir = s.dir := rfl
@[simp] theorem respond_busy (st : Status) (res : ResultField) (s : State) : (respond st res s).busy = s.busy := rfl
@[simp] theorem respond_held (st : Status) (res : ResultField) (s : State) : (respond st res s).held = s.held := rfl
@[simp] theorem respond_host (st : Status) (res : ResultField) (s : State) : (respond st res s).host = s.host := rfl
@[simp] theorem respond_draws (st : Status) (res : ResultField) (s : State) : (respond st res s).draws = s.draws := rfl

@[simp] theorem raise_rk (e : Status) (s : State) : (raise e s).rk = s.rk := rfl
@[simp] theorem raise_klen (e : Status) (s : State) : (raise e s).klen = s.klen := rfl
@[simp] theorem raise_rsp (e : Status) (s : State) : (raise e s).rsp = packRsp e 0 := rfl
@[simp] theorem raise_rspValid (e : Status) (s : State) : (raise e s).rspValid = true := rfl
@[simp] theorem raise_blk (e : Status) (s : State) : (raise e s).blk = s.blk := rfl
@[simp] theorem raise_ri (e : Status) (s : State) : (raise e s).ri = s.ri := rfl
@[simp] theorem raise_nr (e : Status) (s : State) : (raise e s).nr = s.nr := rfl
@[simp] theorem raise_dir (e : Status) (s : State) : (raise e s).dir = s.dir := rfl
@[simp] theorem raise_busy (e : Status) (s : State) : (raise e s).busy = s.busy := rfl
@[simp] theorem raise_held (e : Status) (s : State) : (raise e s).held = s.held := rfl
@[simp] theorem raise_host (e : Status) (s : State) : (raise e s).host = s.host := rfl
@[simp] theorem raise_draws (e : Status) (s : State) : (raise e s).draws = s.draws := rfl

@[simp] theorem illegalCommand_rk (s : State) : (illegalCommand s).rk = s.rk := rfl
@[simp] theorem illegalCommand_klen (s : State) : (illegalCommand s).klen = s.klen := rfl
@[simp] theorem illegalCommand_rsp (s : State) : (illegalCommand s).rsp = packRsp .illegalCommand 0 := rfl
@[simp] theorem illegalCommand_rspValid (s : State) : (illegalCommand s).rspValid = true := rfl
@[simp] theorem illegalCommand_blk (s : State) : (illegalCommand s).blk = s.blk := rfl
@[simp] theorem illegalCommand_ri (s : State) : (illegalCommand s).ri = s.ri := rfl
@[simp] theorem illegalCommand_nr (s : State) : (illegalCommand s).nr = s.nr := rfl
@[simp] theorem illegalCommand_dir (s : State) : (illegalCommand s).dir = s.dir := rfl
@[simp] theorem illegalCommand_busy (s : State) : (illegalCommand s).busy = s.busy := rfl
@[simp] theorem illegalCommand_held (s : State) : (illegalCommand s).held = s.held := rfl
@[simp] theorem illegalCommand_host (s : State) : (illegalCommand s).host = s.host := rfl
@[simp] theorem illegalCommand_draws (s : State) : (illegalCommand s).draws = s.draws := rfl

@[simp] theorem takeResponse_rk (s : State) : (takeResponse s).rk = s.rk := rfl
@[simp] theorem takeResponse_klen (s : State) : (takeResponse s).klen = s.klen := rfl
@[simp] theorem takeResponse_rsp (s : State) : (takeResponse s).rsp = Config.freeRsp s.draws := rfl
@[simp] theorem takeResponse_rspValid (s : State) : (takeResponse s).rspValid = false := rfl
@[simp] theorem takeResponse_blk (s : State) : (takeResponse s).blk = s.blk := rfl
@[simp] theorem takeResponse_ri (s : State) : (takeResponse s).ri = s.ri := rfl
@[simp] theorem takeResponse_nr (s : State) : (takeResponse s).nr = s.nr := rfl
@[simp] theorem takeResponse_dir (s : State) : (takeResponse s).dir = s.dir := rfl
@[simp] theorem takeResponse_busy (s : State) : (takeResponse s).busy = false := rfl
@[simp] theorem takeResponse_held (s : State) : (takeResponse s).held = s.held := rfl
@[simp] theorem takeResponse_host (s : State) : (takeResponse s).host = s.host := rfl
@[simp] theorem takeResponse_draws (s : State) : (takeResponse s).draws = s.draws + 1 := rfl

@[simp] theorem accept_rk (s : State) : (accept s).rk = s.rk := rfl
@[simp] theorem accept_klen (s : State) : (accept s).klen = s.klen := rfl
@[simp] theorem accept_rsp (s : State) : (accept s).rsp = s.rsp := rfl
@[simp] theorem accept_rspValid (s : State) : (accept s).rspValid = s.rspValid := rfl
@[simp] theorem accept_blk (s : State) : (accept s).blk = s.blk := rfl
@[simp] theorem accept_ri (s : State) : (accept s).ri = s.ri := rfl
@[simp] theorem accept_nr (s : State) : (accept s).nr = s.nr := rfl
@[simp] theorem accept_dir (s : State) : (accept s).dir = s.dir := rfl
@[simp] theorem accept_busy (s : State) : (accept s).busy = true := rfl
@[simp] theorem accept_held (s : State) : (accept s).held = none := rfl
@[simp] theorem accept_host (s : State) : (accept s).host = s.host := rfl
@[simp] theorem accept_draws (s : State) : (accept s).draws = s.draws := rfl

@[simp] theorem acceptedState_rk (rest : List HostPins) (s : State) : (acceptedState rest s).rk = s.rk := rfl
@[simp] theorem acceptedState_klen (rest : List HostPins) (s : State) : (acceptedState rest s).klen = s.klen := rfl
@[simp] theorem acceptedState_rsp (rest : List HostPins) (s : State) : (acceptedState rest s).rsp = s.rsp := rfl
@[simp] theorem acceptedState_rspValid (rest : List HostPins) (s : State) : (acceptedState rest s).rspValid = s.rspValid := rfl
@[simp] theorem acceptedState_blk (rest : List HostPins) (s : State) : (acceptedState rest s).blk = s.blk := rfl
@[simp] theorem acceptedState_ri (rest : List HostPins) (s : State) : (acceptedState rest s).ri = s.ri := rfl
@[simp] theorem acceptedState_nr (rest : List HostPins) (s : State) : (acceptedState rest s).nr = s.nr := rfl
@[simp] theorem acceptedState_dir (rest : List HostPins) (s : State) : (acceptedState rest s).dir = s.dir := rfl
@[simp] theorem acceptedState_busy (rest : List HostPins) (s : State) : (acceptedState rest s).busy = true := rfl
@[simp] theorem acceptedState_held (rest : List HostPins) (s : State) : (acceptedState rest s).held = none := rfl
@[simp] theorem acceptedState_host (rest : List HostPins) (s : State) : (acceptedState rest s).host = rest := rfl
@[simp] theorem acceptedState_draws (rest : List HostPins) (s : State) : (acceptedState rest s).draws = s.draws := rfl

@[simp] theorem hold_rk (w : Option CmdWord) (s : State) : (hold w s).rk = s.rk := rfl
@[simp] theorem hold_klen (w : Option CmdWord) (s : State) : (hold w s).klen = s.klen := rfl
@[simp] theorem hold_rsp (w : Option CmdWord) (s : State) : (hold w s).rsp = s.rsp := rfl
@[simp] theorem hold_rspValid (w : Option CmdWord) (s : State) : (hold w s).rspValid = s.rspValid := rfl
@[simp] theorem hold_blk (w : Option CmdWord) (s : State) : (hold w s).blk = s.blk := rfl
@[simp] theorem hold_ri (w : Option CmdWord) (s : State) : (hold w s).ri = s.ri := rfl
@[simp] theorem hold_nr (w : Option CmdWord) (s : State) : (hold w s).nr = s.nr := rfl
@[simp] theorem hold_dir (w : Option CmdWord) (s : State) : (hold w s).dir = s.dir := rfl
@[simp] theorem hold_busy (w : Option CmdWord) (s : State) : (hold w s).busy = s.busy := rfl
@[simp] theorem hold_held (w : Option CmdWord) (s : State) : (hold w s).held = w := rfl
@[simp] theorem hold_host (w : Option CmdWord) (s : State) : (hold w s).host = s.host := rfl
@[simp] theorem hold_draws (w : Option CmdWord) (s : State) : (hold w s).draws = s.draws := rfl

@[simp] theorem resetCore_rk (s : State) : (resetCore s).rk = (State.afterReset s.draws).rk := rfl
@[simp] theorem resetCore_klen (s : State) : (resetCore s).klen = 0 := rfl
@[simp] theorem resetCore_rsp (s : State) : (resetCore s).rsp = Config.freeRsp s.draws := rfl
@[simp] theorem resetCore_rspValid (s : State) : (resetCore s).rspValid = false := rfl
@[simp] theorem resetCore_blk (s : State) : (resetCore s).blk = Config.freeBlk s.draws := rfl
@[simp] theorem resetCore_ri (s : State) : (resetCore s).ri = Config.freeRi s.draws := rfl
@[simp] theorem resetCore_nr (s : State) : (resetCore s).nr = Config.freeNr s.draws := rfl
@[simp] theorem resetCore_dir (s : State) : (resetCore s).dir = Config.freeDir s.draws := rfl
@[simp] theorem resetCore_busy (s : State) : (resetCore s).busy = false := rfl
@[simp] theorem resetCore_held (s : State) : (resetCore s).held = none := rfl
@[simp] theorem resetCore_host (s : State) : (resetCore s).host = s.host := rfl
@[simp] theorem resetCore_draws (s : State) : (resetCore s).draws = s.draws + 1 := rfl

@[simp] theorem releaseDriver_rk (s : State) : (releaseDriver s).rk = s.rk := rfl
@[simp] theorem releaseDriver_klen (s : State) : (releaseDriver s).klen = s.klen := rfl
@[simp] theorem releaseDriver_rsp (s : State) : (releaseDriver s).rsp = s.rsp := rfl
@[simp] theorem releaseDriver_rspValid (s : State) : (releaseDriver s).rspValid = s.rspValid := rfl
@[simp] theorem releaseDriver_blk (s : State) : (releaseDriver s).blk = Config.freeBlk s.draws := rfl
@[simp] theorem releaseDriver_ri (s : State) : (releaseDriver s).ri = Config.freeRi s.draws := rfl
@[simp] theorem releaseDriver_nr (s : State) : (releaseDriver s).nr = Config.freeNr s.draws := rfl
@[simp] theorem releaseDriver_dir (s : State) : (releaseDriver s).dir = Config.freeDir s.draws := rfl
@[simp] theorem releaseDriver_busy (s : State) : (releaseDriver s).busy = s.busy := rfl
@[simp] theorem releaseDriver_held (s : State) : (releaseDriver s).held = s.held := rfl
@[simp] theorem releaseDriver_host (s : State) : (releaseDriver s).host = s.host := rfl
@[simp] theorem releaseDriver_draws (s : State) : (releaseDriver s).draws = s.draws + 1 := rfl

@[simp] theorem loadDriver_rk (d : Direction) (b : Block) (n : Count) (s : State) : (loadDriver d b n s).rk = s.rk := rfl
@[simp] theorem loadDriver_klen (d : Direction) (b : Block) (n : Count) (s : State) : (loadDriver d b n s).klen = s.klen := rfl
@[simp] theorem loadDriver_rsp (d : Direction) (b : Block) (n : Count) (s : State) : (loadDriver d b n s).rsp = s.rsp := rfl
@[simp] theorem loadDriver_rspValid (d : Direction) (b : Block) (n : Count) (s : State) : (loadDriver d b n s).rspValid = s.rspValid := rfl
@[simp] theorem loadDriver_blk (d : Direction) (b : Block) (n : Count) (s : State) : (loadDriver d b n s).blk = b := rfl
@[simp] theorem loadDriver_ri (d : Direction) (b : Block) (n : Count) (s : State) : (loadDriver d b n s).ri = 0 := rfl
@[simp] theorem loadDriver_nr (d : Direction) (b : Block) (n : Count) (s : State) : (loadDriver d b n s).nr = n := rfl
@[simp] theorem loadDriver_dir (d : Direction) (b : Block) (n : Count) (s : State) : (loadDriver d b n s).dir = d := rfl
@[simp] theorem loadDriver_busy (d : Direction) (b : Block) (n : Count) (s : State) : (loadDriver d b n s).busy = true := rfl
@[simp] theorem loadDriver_held (d : Direction) (b : Block) (n : Count) (s : State) : (loadDriver d b n s).held = s.held := rfl
@[simp] theorem loadDriver_host (d : Direction) (b : Block) (n : Count) (s : State) : (loadDriver d b n s).host = s.host := rfl
@[simp] theorem loadDriver_draws (d : Direction) (b : Block) (n : Count) (s : State) : (loadDriver d b n s).draws = s.draws := rfl

/-- KEYGEN's loop writes nothing but the key store (spec/42_key_schedule_and_store.md R144). -/
theorem writeSchedule_frame (mk : MasterKey) (n : Nat) (s : State) :
    writeSchedule mk n s = { s with rk := (writeSchedule mk n s).rk } := by
  induction n with
  | zero => rfl
  | succ n ih =>
    rw [show writeSchedule mk (n + 1) s = keyWrite n (roundKey mk n) (writeSchedule mk n s) from rfl, ih]
    rfl

@[simp] theorem writeSchedule_klen (mk : MasterKey) (n : Nat) (s : State) : (writeSchedule mk n s).klen = s.klen := by
  rw [writeSchedule_frame]

@[simp] theorem writeSchedule_rsp (mk : MasterKey) (n : Nat) (s : State) : (writeSchedule mk n s).rsp = s.rsp := by
  rw [writeSchedule_frame]

@[simp] theorem writeSchedule_rspValid (mk : MasterKey) (n : Nat) (s : State) : (writeSchedule mk n s).rspValid = s.rspValid := by
  rw [writeSchedule_frame]

@[simp] theorem writeSchedule_blk (mk : MasterKey) (n : Nat) (s : State) : (writeSchedule mk n s).blk = s.blk := by
  rw [writeSchedule_frame]

@[simp] theorem writeSchedule_ri (mk : MasterKey) (n : Nat) (s : State) : (writeSchedule mk n s).ri = s.ri := by
  rw [writeSchedule_frame]

@[simp] theorem writeSchedule_nr (mk : MasterKey) (n : Nat) (s : State) : (writeSchedule mk n s).nr = s.nr := by
  rw [writeSchedule_frame]

@[simp] theorem writeSchedule_dir (mk : MasterKey) (n : Nat) (s : State) : (writeSchedule mk n s).dir = s.dir := by
  rw [writeSchedule_frame]

@[simp] theorem writeSchedule_busy (mk : MasterKey) (n : Nat) (s : State) : (writeSchedule mk n s).busy = s.busy := by
  rw [writeSchedule_frame]

@[simp] theorem writeSchedule_held (mk : MasterKey) (n : Nat) (s : State) : (writeSchedule mk n s).held = s.held := by
  rw [writeSchedule_frame]

@[simp] theorem writeSchedule_host (mk : MasterKey) (n : Nat) (s : State) : (writeSchedule mk n s).host = s.host := by
  rw [writeSchedule_frame]

@[simp] theorem writeSchedule_draws (mk : MasterKey) (n : Nat) (s : State) : (writeSchedule mk n s).draws = s.draws := by
  rw [writeSchedule_frame]

end Sys2Proof.Machine
end

