-- ==== Sys2Proof/Laws/Ops.lean ====
section
/-! SUPPORT. What the shared operations and one sample of the host's pins can do, said once. -/

namespace Sys2Proof.Machine

@[simp] theorem rspST_packRsp (st : Status) (res : ResultField) : rspST (packRsp st res) = statusCode st := by
  apply BitVec.eq_of_getLsbD_eq
  intro i hi
  simp only [rspST, packRsp, BitVec.getLsbD_extractLsb', BitVec.getLsbD_append]
  simp [hi, show 12 + i - 12 = i by omega]

@[simp] theorem rspRES_packRsp (st : Status) (res : ResultField) : rspRES (packRsp st res) = res := by
  apply BitVec.eq_of_getLsbD_eq
  intro i hi
  simp only [rspRES, packRsp, BitVec.getLsbD_extractLsb', BitVec.getLsbD_append]
  simp [hi]

/-- A guarded read answers exactly the entries below KLEN (spec/20_memory.md R52). -/
theorem keyRead_of_lt {i : Nat} {s : State} (h : i < s.klen.val) :
    keyRead i s = some (s.rk[i]'(by have := s.klen.isLt; omega)) := by
  have h9 : i < 9 := by have := s.klen.isLt; omega
  simp [keyRead, h, h9]

/-- Nothing is read at or beyond KLEN (spec/20_memory.md R52). -/
theorem keyRead_of_ge {i : Nat} {s : State} (h : s.klen.val ≤ i) : keyRead i s = none := by
  simp [keyRead, Nat.not_lt.mpr h]

/-- A write sets its entry and no other (spec/20_memory.md R41). -/
theorem keyWrite_getElem (i j : Nat) (v : RoundKey) (s : State) (hj : j < 9) :
    (keyWrite i v s).rk[j] = if i = j then v else s.rk[j] := by
  simp [keyWrite, Vector.getElem_setIfInBounds]

/-- What one round of the driver can do: it reads the key at the driver's index and advances BLK and RI only
(spec/43_cipher_driver.md R165). -/
theorem driverStep_cases {s t : State} (h : driverStep s = some t) :
    ∃ k, keyRead (driverIndex s) s = some k ∧
      t = { s with
        blk := if s.ri.toNat + 1 = s.nr.toNat then finalRound s.blk k else swapRound s.blk k
        ri := s.ri + 1 } := by
  unfold driverStep at h
  split at h
  · exact ⟨_, ‹_›, (Option.some.inj h).symm⟩
  · cases h

/-- The driver's loop changes BLK and RI only (spec/43_cipher_driver.md R165). -/
theorem driverLoop_frame {fuel : Nat} {s t : State} (h : driverLoop fuel s = some t) :
    t = { s with blk := t.blk, ri := t.ri } := by
  induction fuel generalizing s with
  | zero => cases h; rfl
  | succ fuel ih =>
    unfold driverLoop at h
    split at h
    · cases h; rfl
    · split at h
      · rename_i hs
        obtain ⟨k, -, rfl⟩ := driverStep_cases hs
        exact (ih h :)
      · cases h

/-- What one step can do: wait at the end of the host's list, or one of the port's events (spec/30_encoding.md R69,
spec/70_reset_and_hazards.md R200, R211). -/
theorem step_cases {s t : State} (h : step s = .next t) :
    (s.host = [] ∧ t = s) ∨
    ∃ p rest, s.host = p :: rest ∧
      ((portEvent p s = .reset ∧ t = hold p.presented (resetCore { s with host := rest })) ∨
       (portEvent p s = .take ∧ t = hold p.presented (takeResponse { s with host := rest })) ∨
       (portEvent p s = .wait ∧ t = hold p.presented { s with host := rest }) ∨
       ∃ w, portEvent p s = .accept w ∧ runWord w (acceptedState rest s) = .next t) := by
  unfold step at h
  split at h
  · exact .inl ⟨‹_›, (Host.Outcome.next.inj h).symm⟩
  · refine .inr ⟨_, _, ‹_›, ?_⟩
    unfold portStep at h
    split at h
    · exact .inl ⟨‹_›, (Host.Outcome.next.inj h).symm⟩
    · cases h
    · cases h
    · exact .inr (.inl ⟨‹_›, (Host.Outcome.next.inj h).symm⟩)
    · exact .inr (.inr (.inr ⟨_, ‹_›, h⟩))
    · exact .inr (.inr (.inl ⟨‹_›, (Host.Outcome.next.inj h).symm⟩))

end Sys2Proof.Machine
end

