-- ==== Sys2Proof/Laws/PerInstr.lean ====
section
/-! SUPPORT. Statements about every command, one lemma per constructor. The family `OperandsFit`: the line a disassembler prints
for a command fits its fields, so the command is well formed (spec/30_encoding.md R74). -/

namespace Sys2Proof.Laws

/-- An operand of at most sixteen bits fits the field A. -/
theorem fitsA_toNat {n : Nat} (h : n ≤ 16) (v : BitVec n) : fitsA v.toNat = true :=
  decide_eq_true (Nat.lt_of_lt_of_le v.isLt (Nat.pow_le_pow_right (Nat.succ_pos 1) h))

/-- An operand of eight bits fits the field K. -/
theorem fitsK_toNat (v : BitVec 8) : fitsK v.toNat = true := decide_eq_true v.isLt

/-- An operand of four bits fits the field N. -/
theorem fitsN_toNat (v : BitVec 4) : fitsN v.toNat = true := decide_eq_true v.isLt

/-- The command is well formed. -/
def OperandsFit.Statement (i : Instr) : Prop := i.wellFormed = true

theorem OperandsFit.expand (half : Half) : OperandsFit.Statement (.expand half) := fitsA_toNat (by decide) half

theorem OperandsFit.confuse (val : Expanded) : OperandsFit.Statement (.confuse val) := fitsA_toNat (by decide) val

theorem OperandsFit.feistel (half : Half) (key : RoundKey) : OperandsFit.Statement (.feistel half key) :=
  Bool.and_eq_true_iff.mpr ⟨fitsA_toNat (by decide) half, fitsK_toNat key⟩

theorem OperandsFit.round (block : Block) (key : RoundKey) : OperandsFit.Statement (.round block key) :=
  Bool.and_eq_true_iff.mpr ⟨fitsA_toNat (by decide) block, fitsK_toNat key⟩

theorem OperandsFit.roundf (block : Block) (key : RoundKey) : OperandsFit.Statement (.roundf block key) :=
  Bool.and_eq_true_iff.mpr ⟨fitsA_toNat (by decide) block, fitsK_toNat key⟩

theorem OperandsFit.keygen (mkey : MasterKey) (n : Count) : OperandsFit.Statement (.keygen mkey n) :=
  Bool.and_eq_true_iff.mpr ⟨fitsA_toNat (by decide) mkey, fitsN_toNat n⟩

theorem OperandsFit.encrypt (block : Block) (n : Count) : OperandsFit.Statement (.encrypt block n) :=
  Bool.and_eq_true_iff.mpr ⟨fitsA_toNat (by decide) block, fitsN_toNat n⟩

theorem OperandsFit.decrypt (block : Block) (n : Count) : OperandsFit.Statement (.decrypt block n) :=
  Bool.and_eq_true_iff.mpr ⟨fitsA_toNat (by decide) block, fitsN_toNat n⟩

theorem OperandsFit.kclr : OperandsFit.Statement .kclr := rfl

theorem OperandsFit.kpush (key : RoundKey) : OperandsFit.Statement (.kpush key) := fitsK_toNat key

theorem OperandsFit.kread (idx : Count) : OperandsFit.Statement (.kread idx) := fitsN_toNat idx

end Sys2Proof.Laws
end

