-- ==== Sys2Proof/Tests/Slice0.lean ====
section
/-! SUPPORT. The model's own tests. Expected values come from spec/95_test_vectors.md (the section is named at each group) or from
the encoding rules of spec/30_encoding.md; then one witness per statement with hypotheses. -/

namespace Sys2Proof.Tests
open Sys2Proof Sys2Proof.Machine

/-- A small state: a key store, an idle port, zeros elsewhere. -/
def storeOf (rk : Vector RoundKey 9) (n : Fin 10) : State where
  rk := rk
  klen := n
  rsp := 0
  rspValid := false
  blk := 0
  ri := 0
  nr := 0
  dir := .encrypt
  busy := false
  held := none
  host := []
  draws := 0

/-- The store `2: 9D 3B` of spec/95_test_vectors.md. -/
def store2 : State := storeOf #v[0x9D, 0x3B, 0, 0, 0, 0, 0, 0, 0] 2
/-- The store `9: 9D 3B 77 EE DC B9 73 E7 CE` of spec/95_test_vectors.md. -/
def store9 : State := storeOf #v[0x9D, 0x3B, 0x77, 0xEE, 0xDC, 0xB9, 0x73, 0xE7, 0xCE] 9
/-- The empty store. -/
def store0 : State := storeOf #v[0, 0, 0, 0, 0, 0, 0, 0, 0] 0

/-- RSP and KLEN after the step that accepts a word in a given state. -/
def answer (s : State) (w : Nat) : Option (RspWord × Nat) :=
  match step (s.withFetchWord 32 w) with
  | .next t => some (t.rsp, t.klen.val)
  | .fault _ => none
  | .refused _ => none

/-! ### Well-formedness: one ill-formed line for each check, refused -/

theorem test_wellFormed_refuses_wide_A : (AsmLine.expand 65536).wellFormed = false := by decide
theorem test_wellFormed_refuses_wide_K : (AsmLine.kpush 256).wellFormed = false := by decide
theorem test_wellFormed_refuses_wide_N : (AsmLine.kread 16).wellFormed = false := by decide
theorem test_wellFormed_refuses_wide_word : (AsmLine.word 4294967296).wellFormed = false := by decide
theorem test_wellFormed_refuses_either_operand :
    (AsmLine.feistel 65536 0).wellFormed = false ∧ (AsmLine.feistel 0 256).wellFormed = false ∧
      (AsmLine.keygen 0 16).wellFormed = false ∧ (AsmLine.encrypt 0 16).assemble = none := by decide

/-! ### Decoding: for every command a word written out bit by bit from R60 and R64 (OP, N, A, K) -/

theorem test_decode_expand : decode 0b00010000000000000011010100000000 = .ok (.expand 0x35) := by decide
theorem test_decode_confuse : decode 0b00100000000000000111010000000000 = .ok (.confuse 0x74) := by decide
theorem test_decode_feistel : decode 0b00110000000000000010010100111011 = .ok (.feistel 0x25 0x3B) := by decide
theorem test_decode_round : decode 0b01000000000011010110010100111011 = .ok (.round 0xD65 0x3B) := by decide
theorem test_decode_roundf : decode 0b01000001000011010110010100111011 = .ok (.roundf 0xD65 0x3B) := by decide
theorem test_decode_keygen : decode 0b01010100000000010011101100000000 = .ok (.keygen 0x13B 4) := by decide
theorem test_decode_encrypt : decode 0b01100010000010001011010100000000 = .ok (.encrypt 0x8B5 2) := by decide
theorem test_decode_decrypt : decode 0b01110010000001001110010100000000 = .ok (.decrypt 0x4E5 2) := by decide
theorem test_decode_kclr : decode 0b10000000000000000000000000000000 = .ok .kclr := by decide
theorem test_decode_kpush : decode 0b10010000000000000000000010011101 = .ok (.kpush 0x9D) := by decide
theorem test_decode_kread : decode 0b10100010000000000000000000000000 = .ok (.kread 2) := by decide
theorem test_decode_reserved : decode 0x00000000 = .error (.reservedOpcode 0x0) ∧
    decode 0xB208B500 = .error (.reservedOpcode 0xB) ∧ decode 0xFFFFFFFF = .error (.reservedOpcode 0xF) := by decide
/-- spec/95_test_vectors.md section 2.4, ignored bits: N = 0xE and N = 0xF, A = 0xFD65. -/
theorem test_decode_ignores_bits : decode 0x4EFD653B = .ok (.round 0xD65 0x3B) ∧
    decode 0x4FFD653B = .ok (.roundf 0xD65 0x3B) := by decide

/-! ### Assembly (R74) -/

theorem test_assemble_keygen : (AsmLine.keygen 0x13B 4).assemble = some 0x54013B00 := by decide
theorem test_assemble_text : assembleText "ENCRYPT 0x8B5, 2 ; vector 18".toList = some 0x6208B500 := by decide
theorem test_assemble_text_refuses_wide : assembleText "KREAD 16".toList = none := by decide
theorem test_write_response : writeResponse 0x04E5 = some "OK 0x4E5".toList ∧
    writeResponse 0x2000 = some "InsufficientKeys".toList := by decide

/-! ### One step of each command (spec/95_test_vectors.md sections 1, 2 and 4) -/

theorem test_step_expand_swapped_bits : answer store0 0x10000800 = some (0x0014, 0) := by decide
theorem test_step_expand_ignores_high_bits : answer store0 0x1FFFE0FF = some (0x0080, 0) := by decide
theorem test_step_confuse_zero_result : answer store0 0x20007100 = some (0x0000, 0) := by decide
theorem test_step_confuse_corner : answer store0 0x2000FF00 = some (0x001C, 0) := by decide
theorem test_step_feistel : answer store0 0x300035E3 = some (0x0028, 0) := by decide
theorem test_step_round : answer store0 0x4008B5E3 = some (0x0D4A, 0) := by decide
theorem test_step_roundf : answer store0 0x410D653B = some (0x04E5, 0) := by decide
theorem test_step_keygen_all_nine : (match step (store0.withFetchWord 32 0x5901C700) with
    | .next t => decide (t.rk = #v[0xE3, 0xC7, 0x8F, 0x1F, 0x3F, 0x7E, 0xFC, 0xF8, 0xF1] ∧ t.rsp = 0x0009)
    | _ => false) = true := by decide
theorem test_step_keygen_fails : answer store2 0x5A01C700 = some (0x1000, 0) := by decide
theorem test_step_kclr : answer store9 0x8FFFFFFF = some (0x0000, 0) := by decide
theorem test_step_kpush : answer store2 0x90000011 = some (0x0003, 3) := by decide
theorem test_step_kpush_full : answer store9 0x90000000 = some (0x1000, 9) := by decide
theorem test_step_kread_last : answer store9 0xA8000000 = some (0x00CE, 9) := by decide
theorem test_step_kread_beyond : answer store2 0xA2FFFFFF = some (0x2000, 2) := by decide
theorem test_step_encrypt_nine : answer store9 0x6908B500 = some (0x07ED, 9) := by decide
theorem test_step_encrypt_count_out_of_range : answer store9 0x6A08B500 = some (0x2000, 9) := by decide
theorem test_step_decrypt_nine : answer store9 0x7907ED00 = some (0x08B5, 9) := by decide
theorem test_step_decrypt_reverses_first_keys : answer store9 0x7204E500 = some (0x08B5, 9) := by decide
theorem test_step_reserved : answer store2 0xB208B500 = some (0x3000, 2) := by decide
/-- The first step after reset runs a presented command (spec/95_test_vectors.md P3 rows 1 and 2). -/
theorem test_step_from_reset : answer State.reset 0x60012300 = some (0x0123, 0) ∧
    answer State.reset 0x61012300 = some (0x2000, 0) := by decide

/-! ### Witnesses: the hypotheses of each statement, met together -/

/-- A response pending on the port. -/
def pending : State := { store2 with rsp := 0x04E5, rspValid := true, busy := true, host := [pinsTake] }
/-- A word presented to an idle core. -/
def presenting (w : CmdWord) : State := { store2 with host := [pinsPresent w] }

theorem test_witness_ExpandCommand : fieldOP 0x1FFFE0FF = 0x1 ∧ (65535 : Nat) < 65536 := by decide
theorem test_witness_ConfuseCommand : fieldOP 0x2FAB74FF = 0x2 ∧ (65535 : Nat) < 65536 := by decide
theorem test_witness_FeistelCommand : fieldOP 0x3FFFE53B = 0x3 ∧ (65535 : Nat) < 65536 ∧ (255 : Nat) < 256 := by decide
theorem test_witness_RoundCommand : fieldOP 0x4EFD653B = 0x4 ∧ BitVec.getLsbD (0x4EFD653B : CmdWord) 24 = false ∧
    (65535 : Nat) < 65536 ∧ (255 : Nat) < 256 := by decide
theorem test_witness_RoundfCommand : fieldOP 0x4FFD653B = 0x4 ∧ BitVec.getLsbD (0x4FFD653B : CmdWord) 24 = true ∧
    (65535 : Nat) < 65536 ∧ (255 : Nat) < 256 := by decide
theorem test_witness_KeygenCommand : (9 : Count).toNat ≤ 9 ∧ (0 : Nat) < (9 : Count).toNat ∧ 9 < (10 : Count).toNat ∧
    fieldOP 0x54FF3BEE = 0x5 ∧ (65535 : Nat) < 65536 ∧ (15 : Nat) < 16 := by decide
theorem test_witness_KclrCommand : fieldOP 0x8FFFFFFF = 0x8 := by decide
theorem test_witness_KpushCommand : store2.klen.val < 9 ∧ store9.klen.val = 9 ∧ (0 : Nat) ≠ store2.klen.val ∧
    fieldOP 0x9000009D = 0x9 ∧ (255 : Nat) < 256 := by decide
theorem test_witness_KreadCommand : (8 : Count).toNat < store9.klen.val ∧ store2.klen.val ≤ (2 : Count).toNat ∧
    9 ≤ (9 : Count).toNat ∧ fieldOP 0xA2FFFFFF = 0xA ∧ (15 : Nat) < 16 := by decide
theorem test_witness_EncryptCommand : (9 : Count).toNat ≤ store9.klen.val ∧ store9.klen.val < (10 : Count).toNat ∧
    fieldOP 0x62F8B5A7 = 0x6 ∧ (65535 : Nat) < 65536 ∧ (15 : Nat) < 16 := by decide
theorem test_witness_DecryptCommand : (2 : Count).toNat ≤ store2.klen.val ∧ store2.klen.val < (3 : Count).toNat ∧
    fieldOP 0x72F4E5FF = 0x7 ∧ (65535 : Nat) < 65536 ∧ (15 : Nat) < 16 := by decide
theorem test_witness_EncodeInvertsDecodeUpToIgnoredBits : decode 0x1FFFE0FF = .ok (.expand 0x20) := by decide
theorem test_witness_IgnoredBitsChangeNothing : decode 0x10002000 = .ok (.expand 0x20) ∧
    (0x1FFFE0FF : CmdWord) &&& (Instr.expand 0x20).usedBits = 0x10002000 &&& (Instr.expand 0x20).usedBits ∧
    (pinsPresent 0).rst = false ∧ (pinsPresent 0).cmdValid = true ∧ store2.idle :=
  ⟨by decide, by decide, rfl, rfl, rfl, rfl, rfl⟩
theorem test_witness_OpcodeMapIsTotalAndUnambiguous : OpcodeRow.selects ⟨"ROUNDF", .fAK, 0xF1000000, 0x41000000⟩ 0x4FFD653B = true ∧
    reservedOpcode (fieldOP 0xB208B500) = true ∧ reservedOpcode (fieldOP 0xA0000000) = false := by decide
theorem test_witness_AssembleDisassembly : reservedOpcode (fieldOP 0x00000000) = true := by decide
theorem test_witness_ExpandLinearAndInjective : (5 : Nat) < 6 ∧ expand 0x24 = 0xA8 ∧
    BitVec.getLsbD (0xA8 : Expanded) 5 = BitVec.getLsbD (0xA8 : Expanded) 3 ∧
    BitVec.getLsbD (0xA8 : Expanded) 4 = BitVec.getLsbD (0xA8 : Expanded) 2 := by decide
theorem test_witness_RoundKeyIsWindowOfRotatedKey : (15 : Nat) < 16 ∧ (8 : Nat) ≤ 8 ∧ (7 : Nat) < 8 := by decide
/-- 0x1FF and 0x1FE differ only in bit 0, which round 0 leaves out (R142). -/
theorem test_witness_RoundKeyBitsAreCyclic : (8 : Nat) ≤ 8 ∧ (7 : Nat) < 8 ∧
    ∀ b, b < 9 → b ≠ (9 - 0) % 9 → BitVec.getLsbD (0x1FF : MasterKey) b = BitVec.getLsbD (0x1FE : MasterKey) b := by decide
theorem test_witness_EncryptAndDecryptAreInverse : (9 : Count).toNat ≤ store9.klen.val := by decide
theorem test_witness_PushBetweenKeepsInverse : (2 : Count).toNat ≤ store2.klen.val := by decide
theorem test_witness_EncryptRebuiltFromSingleRounds : 1 ≤ (2 : Count).toNat ∧ (2 : Count).toNat ≤ store2.klen.val := by decide
theorem test_witness_FailedKeygenDiscardsKeys : 9 < (10 : Count).toNat ∧ 1 ≤ (1 : Count).toNat := by decide
theorem test_witness_PushingTheNextRoundKeyExtendsTheSchedule : (8 : Count).toNat < 9 := by decide
theorem test_witness_GeneratedKeysRoundTrip : (9 : Count).toNat ≤ (9 : Count).toNat ∧ (9 : Count).toNat ≤ 9 := by decide
theorem test_witness_ErrorsHaveNoPartialEffect :
    ∃ t, runWord 0x6308B500 store2 = .next t ∧ rspST t.rsp ≠ 0 := ⟨_, rfl, by decide⟩
theorem test_witness_ReservedWordAnswersIllegalCommand : (presenting 0xB208B500).host = pinsPresent 0xB208B500 :: [] ∧
    (presenting 0xB208B500).idle ∧ (pinsPresent 0xB208B500).rst = false ∧ (pinsPresent 0xB208B500).cmdValid = true ∧
    ((fieldOP 0xB208B500).toNat = 0 ∨ 11 ≤ (fieldOP 0xB208B500).toNat) ∧ (fieldOP 0x00000000).toNat = 0 :=
  ⟨rfl, ⟨rfl, rfl, rfl⟩, rfl, rfl, by decide, by decide⟩
theorem test_witness_StepRunsDecodedCommand : (presenting 0x6208B500).host = pinsPresent 0x6208B500 :: [] ∧
    (pinsPresent 0x6208B500).rst = false ∧ (pinsPresent 0x6208B500).cmdValid = true ∧
    (presenting 0x6208B500).busy = false ∧ (presenting 0x6208B500).rspValid = false ∧
    (presenting 0x6208B500).held = none ∧ decode 0x6208B500 = .ok (.encrypt 0x8B5 2) ∧
    decodeTableWord 32 0x6208B500 = some (.encrypt 0x8B5 2) :=
  ⟨rfl, rfl, rfl, rfl, rfl, rfl, by decide, by decide⟩
theorem test_witness_AcceptedWordIsAnswered : (presenting 0xFFFFFFFF).host = pinsPresent 0xFFFFFFFF :: [] ∧
    (presenting 0xFFFFFFFF).idle ∧ (pinsPresent 0xFFFFFFFF).rst = false ∧ (pinsPresent 0xFFFFFFFF).cmdValid = true :=
  ⟨rfl, ⟨rfl, rfl, rfl⟩, rfl, rfl⟩
theorem test_witness_ResponseHeldUntilTaken : pending.host = pinsTake :: [] ∧ pending.busy = true ∧ pending.rspValid = true ∧
    pinsTake.rst = false ∧ pending.held = none ∧ pinsTake.rspReady = true ∧ (pinsPresent 0).rspReady = false := by decide
theorem test_witness_BusyCoreKeepsKeyStore : pending.host = pinsTake :: [] ∧ pending.busy = true ∧ pinsTake.rst = false ∧
    ∃ t, step pending = .next t := ⟨rfl, rfl, rfl, _, rfl⟩
theorem test_witness_ResetFromAnyState : { pending with host := [pinsReset] }.host = pinsReset :: [] ∧ pinsReset.rst = true :=
  ⟨rfl, rfl⟩
theorem test_witness_NothingOnThePortsDuringReset : pinsReset.rst = true := rfl
theorem test_witness_KlenChangesOnlyByItsEvents :
    (∃ t, step (presenting 0x5201C700) = .next t) ∧ (∃ t, step (presenting 0x5A01C700) = .next t) ∧
    (∃ t, step (presenting 0x80000000) = .next t) ∧ (∃ t, step (presenting 0x90000000) = .next t) ∧
    (∃ t, step { pending with host := [pinsReset] } = .next t) :=
  ⟨⟨_, rfl⟩, ⟨_, rfl⟩, ⟨_, rfl⟩, ⟨_, rfl⟩, ⟨_, rfl⟩⟩
theorem test_witness_KeyStoreWrittenOnlyByKeyCommands : (presenting 0x6208B500).host = pinsPresent 0x6208B500 :: [] ∧
    (pinsPresent 0x6208B500).rst = false ∧ ∃ t, step (presenting 0x6208B500) = .next t := ⟨rfl, rfl, _, rfl⟩
theorem test_witness_OnlyBrokenHandshakeIsRefused :
    step { pending with held := some 0x80000000 } = .refused .hostDroppedCommand ∧
    step { pending with held := some 0x80000000, host := [pinsPresent 0x90000000] } = .refused .hostChangedCommand :=
  ⟨rfl, rfl⟩
theorem test_witness_StepKeepsTheInvariant : (presenting 0x6308B500).Inv ∧ pending.Inv ∧
    (∃ t, step (presenting 0x6308B500) = .next t) ∧ ∃ t, step pending = .next t :=
  ⟨⟨rfl, fun h => by cases h⟩, ⟨rfl, fun _ => ⟨by decide, fun h => absurd rfl h⟩⟩, ⟨_, rfl⟩, ⟨_, rfl⟩⟩
/-- Two states with the same keys `9D 3B` that differ in a dead entry, in BLK and in RSP. -/
theorem test_witness_ResponseDependsOnWordAndKeysOnly :
    keysOf store2 = keysOf { storeOf #v[0x9D, 0x3B, 0xFF, 0, 0, 0, 0, 0, 0] 2 with blk := 0xABC, rsp := 0x3000 } := by decide
theorem test_witness_MachineRefinesKeyListFunction : (presenting 0x7204E500).host = pinsPresent 0x7204E500 :: [] ∧
    portEvent (pinsPresent 0x7204E500) (presenting 0x7204E500) = .accept 0x7204E500 := by decide
theorem test_witness_CommandSequenceFollowsKeyListFunction :
    { store0 with host := programPins [0x80000000, 0x9000009D] }.idle ∧
    ([0x80000000, 0x9000009D] : List CmdWord)[1]? = some 0x9000009D := ⟨⟨rfl, rfl, rfl⟩, rfl⟩
/-- A word presented while a response is pending and kept until it is accepted, then a reset. -/
theorem test_witness_ConformingHostIsNeverRefused : pending.busy = pending.rspValid ∧
    hostConforms none true [{ pinsPresent 0x80000000 with rspReady := true }, pinsPresent 0x80000000, pinsReset] = true := by
  decide

end Sys2Proof.Tests
end

section
/-! SUPPORT and PROOFS for the family `00_scope`: the machine computes the key-list function `refExec`, so its response and its
next key list depend on the word and the key list only (spec/00_scope.md R10). -/

namespace Sys2Proof.Machine

/-! ### The key list of a state (spec/10_state.md R21, R32): what each shared operation makes of it -/

@[simp] theorem keysOf_length (s : State) : (keysOf s).length = s.klen.val := by
  have := s.klen.isLt
  simp only [keysOf, List.length_take, Vector.length_toList]
  omega

@[simp] theorem keysOf_respond (st : Status) (res : ResultField) (s : State) : keysOf (respond st res s) = keysOf s := rfl
@[simp] theorem keysOf_raise (e : Status) (s : State) : keysOf (raise e s) = keysOf s := rfl
@[simp] theorem keysOf_illegalCommand (s : State) : keysOf (illegalCommand s) = keysOf s := rfl
@[simp] theorem keysOf_acceptedState (rest : List HostPins) (s : State) : keysOf (acceptedState rest s) = keysOf s := rfl
@[simp] theorem keysOf_loadDriver (d : Direction) (b : Block) (n : Count) (s : State) :
    keysOf (loadDriver d b n s) = keysOf s := rfl
@[simp] theorem keysOf_releaseDriver (s : State) : keysOf (releaseDriver s) = keysOf s := rfl
theorem keysOf_setKlen (n : Fin 10) (s : State) : keysOf (setKlen n s) = s.rk.toList.take n.val := rfl

/-- A guarded read is a read of the key list: the entries at or beyond KLEN have no part in it (spec/20_memory.md R52). -/
theorem keyRead_eq_keysOf (i : Nat) (s : State) : keyRead i s = (keysOf s)[i]? := by
  by_cases h : i < s.klen.val <;> simp [keyRead, keysOf, h]

/-- Writing the entry at KLEN and raising KLEN by one appends to the key list (spec/42_key_schedule_and_store.md R146). -/
theorem keysOf_push (key : RoundKey) (s : State) (h : s.klen.val + 1 < 10) :
    keysOf (setKlen ⟨s.klen.val + 1, h⟩ (keyWrite s.klen.val key s)) = keysOf s ++ [key] := by
  have hlt : s.klen.val < (s.rk.toList.set s.klen.val key).length := by simp; omega
  simp [keysOf, List.take_succ_eq_append_getElem hlt, List.take_set_of_le]

/-- KEYGEN's loop leaves the round keys in the first entries (spec/42_key_schedule_and_store.md R143, R144). -/
theorem writeSchedule_take (mk : MasterKey) (s : State) {n : Nat} (h : n ≤ 9) :
    (writeSchedule mk n s).rk.toList.take n = scheduleKeys mk n := by
  induction n with
  | zero => rfl
  | succ n ih =>
    have hlt : n < ((writeSchedule mk n s).rk.toList.set n (roundKey mk n)).length := by simp; omega
    simp [writeSchedule, List.take_succ_eq_append_getElem hlt, List.take_set_of_le, ih (by omega), scheduleKeys,
      List.range_succ]

/-! ### The driver's loop as the rounds of a key list (spec/43_cipher_driver.md R161, R162, R165) -/

/-- The keys of a cipher call in their order of use: the first `n`, forwards to encrypt (R161), backwards to decrypt (R162). -/
def cipherKeys : Direction → Nat → List RoundKey → List RoundKey
  | .encrypt, n, keys => keys.take n
  | .decrypt, n, keys => (keys.take n).reverse

theorem cipherKeys_length (d : Direction) {n : Nat} {keys : List RoundKey} (h : n ≤ keys.length) :
    (cipherKeys d n keys).length = n := by
  cases d <;> simp [cipherKeys, h]

/-- One round of a key list, from the keys left to the keys left after it; the last one is the final variant (R161). -/
theorem cipherRounds_drop (keys : List RoundKey) {i : Nat} (h : i < keys.length) (b : Block) :
    cipherRounds (keys.drop i) b = cipherRounds (keys.drop (i + 1))
      (if i + 1 = keys.length then finalRound b keys[i] else swapRound b keys[i]) := by
  rw [List.drop_eq_getElem_cons h]
  by_cases hlast : i + 1 = keys.length
  · simp [hlast, cipherRounds]
  · rw [List.drop_eq_getElem_cons (show i + 1 < keys.length by omega), if_neg hlast, cipherRounds]

/-- At each round the driver reads the next key in the order of use (R165). -/
theorem keyRead_driverIndex {s : State} (hlen : s.nr.toNat ≤ (keysOf s).length) (hri : s.ri.toNat < s.nr.toNat) :
    keyRead (driverIndex s) s = (cipherKeys s.dir s.nr.toNat (keysOf s))[s.ri.toNat]? := by
  rw [keyRead_eq_keysOf, driverIndex]
  cases s.dir with
  | encrypt => simp [cipherKeys, hri]
  | decrypt =>
    have htake := List.length_take_of_le hlen
    simp only [cipherKeys]
    rw [List.getElem?_reverse (hri.trans_eq htake.symm), htake, List.getElem?_take_of_lt (by omega)]

/-- With a round left the loop runs it, with the key it reads, and goes on (R165). -/
theorem driverLoop_succ {s : State} {k : RoundKey} (fuel : Nat) (hri : s.ri ≠ s.nr) (hk : keyRead (driverIndex s) s = some k) :
    driverLoop (fuel + 1) s = driverLoop fuel { s with
      blk := if s.ri.toNat + 1 = s.nr.toNat then finalRound s.blk k else swapRound s.blk k
      ri := s.ri + 1 } := by
  simp [driverLoop, driverStep, hri, hk]

/-- With no round left the loop stops at once (R165): no key is left, and RI is NR. -/
theorem driverLoop_of_done (fuel : Nat) {s : State} (hlen : s.nr.toNat ≤ (keysOf s).length) (hdone : s.ri = s.nr) :
    driverLoop fuel s = some { s with
      blk := cipherRounds ((cipherKeys s.dir s.nr.toNat (keysOf s)).drop s.ri.toNat) s.blk
      ri := s.nr } := by
  have hstop : driverLoop fuel s = some s := by
    cases fuel with
    | zero => rfl
    | succ fuel => rw [driverLoop, if_pos hdone]
  rw [hstop, hdone, List.drop_of_length_le (cipherKeys_length s.dir hlen).le, cipherRounds]
  exact congrArg (fun r => some { s with ri := r }) hdone

/-- With enough keys and enough fuel the loop runs the rounds that are left, over the keys that are left, up to RI = NR (R165). -/
theorem driverLoop_eq_cipherRounds {fuel : Nat} {s : State} (hlen : s.nr.toNat ≤ (keysOf s).length)
    (hri : s.ri.toNat ≤ s.nr.toNat) (hfuel : s.nr.toNat ≤ s.ri.toNat + fuel) :
    driverLoop fuel s = some { s with
      blk := cipherRounds ((cipherKeys s.dir s.nr.toNat (keysOf s)).drop s.ri.toNat) s.blk
      ri := s.nr } := by
  induction fuel generalizing s with
  | zero => exact driverLoop_of_done 0 hlen (BitVec.eq_of_toNat_eq (by omega))
  | succ fuel ih =>
    by_cases hdone : s.ri = s.nr
    · exact driverLoop_of_done _ hlen hdone
    · have hlt : s.ri.toNat < s.nr.toNat := lt_of_le_of_ne hri fun h => hdone (BitVec.eq_of_toNat_eq h)
      have hnext : (s.ri + 1).toNat = s.ri.toNat + 1 := by
        have := s.nr.isLt
        bv_omega
      have hkeys := cipherKeys_length s.dir hlen
      have hread := keyRead_driverIndex hlen hlt
      rw [List.getElem?_eq_getElem (hlt.trans_eq hkeys.symm)] at hread
      rw [driverLoop_succ fuel hdone hread, cipherRounds_drop _ (hlt.trans_eq hkeys.symm), ih]
      · simp only [hnext, hkeys]
        rfl
      · exact hlen
      · exact hnext.trans_le hlt
      · simp only [hnext]
        omega

/-- ENCRYPT and DECRYPT are the rounds of the keys in their order of use, or InsufficientKeys when there are too few (R160 to
R162); of the working registers nothing is left (R25). -/
theorem runDriver_eq (d : Direction) (block : Block) (n : Count) (s : State) :
    runDriver d block n s = releaseDriver (
      if (keysOf s).length < n.toNat then raise .insufficientKeys (loadDriver d block n s)
      else respond .ok (cipherRounds (cipherKeys d n.toNat (keysOf s)) block) (loadDriver d block n s)) := by
  rw [runDriver, keysOf_length]
  split
  case isTrue => rfl
  case isFalse h =>
    have hlen : n.toNat ≤ (keysOf s).length := by rw [keysOf_length]; omega
    have hfuel : n.toNat ≤ 0 + Config.maxRounds := by have := s.klen.isLt; simp only [Config.maxRounds]; omega
    rw [driverLoop_eq_cipherRounds (s := loadDriver d block n s) hlen (Nat.zero_le _) hfuel]
    rfl

/-- Both directions keep the key list, and answer from it and the word alone (R160). -/
theorem runDriver_keysOf_rsp (d : Direction) (block : Block) (n : Count) (s : State) :
    (runDriver d block n s).rspValid = true ∧ (keysOf (runDriver d block n s), (runDriver d block n s).rsp) =
      if (keysOf s).length < n.toNat then (keysOf s, packRsp .insufficientKeys 0)
      else (keysOf s, packRsp .ok (cipherRounds (cipherKeys d n.toNat (keysOf s)) block)) := by
  rw [runDriver_eq]
  split <;> exact ⟨rfl, rfl⟩

/-! ### The machine computes the key-list function (spec/10_state.md R32) -/

/-- The command completes with a valid response, and the key list and the response are those of the key-list function (R32). -/
def RefinesRef (i : Instr) (s : State) : Prop :=
  ∃ t, exec i s = .next t ∧ t.rspValid = true ∧ (keysOf t, t.rsp) = refCommand (keysOf s) i

theorem keygen_refinesRef (mkey : MasterKey) (n : Count) (s : State) : RefinesRef (.keygen mkey n) s := by
  simp only [RefinesRef, exec, execKeygen, refCommand]
  by_cases h : n.toNat < 10
  · rw [dif_pos h, if_neg (by omega)]
    refine ⟨_, rfl, rfl, ?_⟩
    simp [keysOf_setKlen, writeSchedule_take mkey s (show n.toNat ≤ 9 by omega)]
  · rw [dif_neg h, if_pos (by omega)]
    exact ⟨_, rfl, rfl, rfl⟩

theorem kpush_refinesRef (key : RoundKey) (s : State) : RefinesRef (.kpush key) s := by
  simp only [RefinesRef, exec, execKpush, refCommand, keysOf_length]
  by_cases h : s.klen.val + 1 < 10
  · rw [dif_pos h, if_neg (by omega)]
    exact ⟨_, rfl, rfl, by simp [keysOf_push]⟩
  · rw [dif_neg h, if_pos (by omega)]
    exact ⟨_, rfl, rfl, rfl⟩

theorem kread_refinesRef (idx : Count) (s : State) : RefinesRef (.kread idx) s := by
  simp only [RefinesRef, exec, execKread, refCommand, keyRead_eq_keysOf]
  cases (keysOf s)[idx.toNat]? with
  | some k => exact ⟨_, rfl, rfl, rfl⟩
  | none => exact ⟨_, rfl, rfl, rfl⟩

/-- Every command refines the key-list function: those that do not use the key store by their definitions. -/
theorem exec_refinesRef (i : Instr) (s : State) : RefinesRef i s := by
  cases i with
  | keygen mkey n => exact keygen_refinesRef mkey n s
  | encrypt block n => exact ⟨_, rfl, runDriver_keysOf_rsp .encrypt block n s⟩
  | decrypt block n => exact ⟨_, rfl, runDriver_keysOf_rsp .decrypt block n s⟩
  | kpush key => exact kpush_refinesRef key s
  | kread idx => exact kread_refinesRef idx s
  | expand | confuse | feistel | round | roundf | kclr => exact ⟨_, rfl, rfl, rfl⟩

/-- Every command word, a reserved one too, gives the key list and the response of `exec(keys, cmd)` (R32, R65). -/
theorem runWord_refinesRef (w : CmdWord) (s : State) :
    ∃ t, runWord w s = .next t ∧ t.rspValid = true ∧ (keysOf t, t.rsp) = refExec (keysOf s) w := by
  unfold runWord refExec
  cases decode w with
  | ok i => exact exec_refinesRef i s
  | error e => exact ⟨_, rfl, rfl, rfl⟩

/-- Settles O50: both runs refine the key-list function, applied to the one key list the two states share. -/
theorem responseDependsOnWordAndKeysOnly : Obligations.ResponseDependsOnWordAndKeysOnly := by
  intro w s s' hkeys
  obtain ⟨t, ht, -, href⟩ := runWord_refinesRef w s
  obtain ⟨t', ht', -, href'⟩ := runWord_refinesRef w s'
  have heq : (keysOf t, t.rsp) = (keysOf t', t'.rsp) := by rw [href, href', hkeys]
  obtain ⟨hk, hrsp⟩ := Prod.mk.inj heq
  exact ⟨t, t', ht, ht', hrsp, hk⟩

end Sys2Proof.Machine
end

section
/-! SUPPORT and PROOFS for the family `10_state`: the step that accepts a word refines `exec(keys, cmd)` (spec/10_state.md R32),
from which follow the run of a program and what becomes of KLEN (R22), the length of the key list; and the reset state (R30). -/

namespace Sys2Proof.Machine

/-! ### The reset state (spec/10_state.md R30) -/

/-- Settles O44: R30's table, field by field. -/
theorem resetStateIsEmptyAndReady : Obligations.ResetStateIsEmptyAndReady := ⟨rfl, rfl, rfl, rfl, rfl, rfl⟩

/-- Settles O48: at reset BUSY is 0 and no response is pending, so none has to be legal. -/
theorem resetMeetsTheInvariant : Obligations.ResetMeetsTheInvariant := ⟨rfl, fun hvalid => Bool.noConfusion hvalid⟩

/-! ### The step that accepts a word (spec/30_encoding.md R69) -/

theorem step_of_accept {s : State} {p : HostPins} {rest : List HostPins} {w : CmdWord} (hhost : s.host = p :: rest)
    (hev : portEvent p s = .accept w) : step s = runWord w (acceptedState rest s) := by
  simp only [step, hhost, portStep, hev]

/-- Settles O51: accepting a word leaves the key list to the command, and the command refines the key-list function. -/
theorem machineRefinesKeyListFunction : Obligations.MachineRefinesKeyListFunction := by
  intro s p rest w hhost hev
  rw [step_of_accept hhost hev]
  exact runWord_refinesRef w (acceptedState rest s)

/-! ### What a command leaves of the ports: the presented word and the host's samples -/

/-- Of the ports a run of the driver touches the response only. -/
theorem runDriver_held_host (d : Direction) (block : Block) (n : Count) (s : State) :
    (runDriver d block n s).held = s.held ∧ (runDriver d block n s).host = s.host := by
  rw [runDriver_eq]
  split <;> exact ⟨rfl, rfl⟩

/-- No command reads or moves the host's samples, nor the word presented before. -/
theorem exec_held_host {i : Instr} {s t : State} (h : exec i s = .next t) : t.held = s.held ∧ t.host = s.host := by
  cases i with
  | keygen mkey n =>
    simp only [exec, execKeygen] at h
    split at h <;> cases h
    · simp
    · exact ⟨rfl, rfl⟩
  | encrypt block n => cases h; exact runDriver_held_host .encrypt block n s
  | decrypt block n => cases h; exact runDriver_held_host .decrypt block n s
  | kpush key =>
    simp only [exec, execKpush] at h
    split at h <;> cases h <;> exact ⟨rfl, rfl⟩
  | kread idx =>
    simp only [exec, execKread] at h
    split at h <;> cases h <;> exact ⟨rfl, rfl⟩
  | expand | confuse | feistel | round | roundf | kclr => cases h; exact ⟨rfl, rfl⟩

theorem runWord_held_host {w : CmdWord} {s t : State} (h : runWord w s = .next t) : t.held = s.held ∧ t.host = s.host := by
  unfold runWord at h
  split at h
  · exact exec_held_host h
  · cases h
    exact ⟨rfl, rfl⟩

/-! ### A program, command by command (spec/20_memory.md R44, R47) -/

/-- An idle core accepts the word the host presents. -/
theorem portEvent_pinsPresent {s : State} (hidle : s.idle) (w : CmdWord) : portEvent (pinsPresent w) s = .accept w := by
  obtain ⟨hbusy, hvalid, hheld⟩ := hidle
  simp [portEvent, keepsHeld, rspValidOut, cmdReady, pinsPresent, hbusy, hvalid, hheld]

/-- A host that takes the pending response leaves an idle core with the same key list. -/
theorem step_pinsTake {s : State} {rest : List HostPins} (hhost : s.host = pinsTake :: rest) (hvalid : s.rspValid = true)
    (hheld : s.held = none) : ∃ t, step s = .next t ∧ t.idle ∧ t.host = rest ∧ keysOf t = keysOf s := by
  have hev : portEvent pinsTake s = .take := by simp [portEvent, keepsHeld, rspValidOut, pinsTake, hvalid, hheld]
  simp only [step, hhost, portStep, hev]
  exact ⟨_, rfl, ⟨rfl, rfl, rfl⟩, rfl, rfl⟩

/-- One command of a program: a step that accepts and answers it, then a step that takes its response. -/
theorem programPins_cons_steps {s : State} {w : CmdWord} {ws : List CmdWord} (hidle : s.idle)
    (hhost : s.host = programPins (w :: ws)) :
    ∃ t u, step s = .next t ∧ t.rspValid = true ∧ t.rsp = (refExec (keysOf s) w).2 ∧
      step t = .next u ∧ u.idle ∧ u.host = programPins ws ∧ keysOf u = (refExec (keysOf s) w).1 := by
  have hev := portEvent_pinsPresent hidle w
  obtain ⟨t, hstep, hvalid, href⟩ := machineRefinesKeyListFunction s _ _ w hhost hev
  obtain ⟨hkeys, hrsp⟩ := Prod.ext_iff.mp href
  obtain ⟨hheld, hrest⟩ := runWord_held_host ((step_of_accept hhost hev).symm.trans hstep)
  obtain ⟨u, htake, hready, hgo, hsame⟩ := step_pinsTake hrest hvalid hheld
  exact ⟨t, u, hstep, hvalid, hrsp, htake, hready, hgo, hsame.trans hkeys⟩

theorem run_succ_of_step {s t : State} (k : Nat) (h : step s = .next t) :
    Host.Core.run core (k + 1) s = Host.Core.run core k t := by
  have hcore : core.step s = .next t := h
  simp only [Host.Core.run, hcore]

/-- Settles O52, by induction on the words: each word takes the two steps of `programPins_cons_steps`. -/
theorem commandSequenceFollowsKeyListFunction : Obligations.CommandSequenceFollowsKeyListFunction := by
  intro ws
  induction ws with
  | nil => exact fun s hidle _ => ⟨⟨s, rfl, hidle, rfl⟩, by simp⟩
  | cons w ws ih =>
    intro s hidle hhost
    obtain ⟨t, u, hstep, hvalid, hrsp, htake, hready, hgo, hkeys⟩ := programPins_cons_steps hidle hhost
    have hrun (k : Nat) : Host.Core.run core (k + 2) s = Host.Core.run core k u := by
      rw [run_succ_of_step _ hstep, run_succ_of_step _ htake]
    obtain ⟨⟨v, hend, hvidle, hvkeys⟩, hresponses⟩ := ih u hready hgo
    rw [hkeys] at hvkeys hresponses
    refine ⟨⟨v, (hrun _).trans hend, hvidle, hvkeys⟩, ?_⟩
    intro k w' hk
    cases k with
    | zero =>
      obtain rfl : w = w' := Option.some.inj hk
      exact ⟨t, run_succ_of_step 0 hstep, hvalid, hrsp⟩
    | succ k =>
      obtain ⟨x, hx, hxvalid, hxrsp⟩ := hresponses k w' hk
      exact ⟨x, (hrun _).trans hx, hxvalid, hxrsp⟩

/-! ### KLEN as the length of the key list (spec/10_state.md R22) -/

theorem keysOf_length_le (s : State) : (keysOf s).length ≤ 9 := by
  rw [keysOf_length]
  exact Nat.le_of_lt_succ s.klen.isLt

theorem refCommand_keygen_length (keys : List RoundKey) (mkey : MasterKey) (n : Count) :
    (refCommand keys (.keygen mkey n)).1.length = if n.toNat ≤ 9 then n.toNat else 0 := by
  by_cases h : n.toNat ≤ 9
  · simp [refCommand, h, Nat.not_lt.mpr h, scheduleKeys]
  · simp [refCommand, h, Nat.lt_of_not_le h]

theorem refCommand_kpush_length {keys : List RoundKey} (hlen : keys.length ≤ 9) (key : RoundKey) :
    (refCommand keys (.kpush key)).1.length = if keys.length < 9 then keys.length + 1 else keys.length := by
  by_cases h : keys.length = 9
  · simp [refCommand, h]
  · simp [refCommand, h, lt_of_le_of_ne hlen h]

theorem refCommand_encrypt_keys (keys : List RoundKey) (block : Block) (n : Count) :
    (refCommand keys (.encrypt block n)).1 = keys := by
  simp only [refCommand]
  split <;> rfl

theorem refCommand_decrypt_keys (keys : List RoundKey) (block : Block) (n : Count) :
    (refCommand keys (.decrypt block n)).1 = keys := by
  simp only [refCommand]
  split <;> rfl

theorem refCommand_kread_keys (keys : List RoundKey) (idx : Count) : (refCommand keys (.kread idx)).1 = keys := by
  simp only [refCommand]
  split <;> rfl

theorem refCommand_kread_ok_iff (keys : List RoundKey) (idx : Count) :
    rspST (refCommand keys (.kread idx)).2 = 0 ↔ idx.toNat < keys.length := by
  by_cases h : idx.toNat < keys.length
  · simp [refCommand, h, statusCode]
  · simp [refCommand, h, statusCode]

theorem refCommand_encrypt_ok_iff (keys : List RoundKey) (block : Block) (n : Count) :
    rspST (refCommand keys (.encrypt block n)).2 = 0 ↔ n.toNat ≤ keys.length := by
  by_cases h : keys.length < n.toNat
  · simp [refCommand, h, statusCode]
  · simp [refCommand, h, Nat.le_of_not_lt h, statusCode]

/-- A command for which the key-list function keeps the key list keeps KLEN, and answers as that function does. -/
theorem exec_klen_rsp_of_keys_kept {i : Instr} {s : State} (hkept : (refCommand (keysOf s) i).1 = keysOf s) :
    ∃ t, exec i s = .next t ∧ t.klen = s.klen ∧ t.rsp = (refCommand (keysOf s) i).2 := by
  obtain ⟨t, ht, -, href⟩ := exec_refinesRef i s
  obtain ⟨hkeys, hrsp⟩ := Prod.ext_iff.mp href
  refine ⟨t, ht, Fin.ext ?_, hrsp⟩
  rw [← keysOf_length t, ← keysOf_length s, ← hkept]
  exact congrArg List.length hkeys

theorem runWord_klen {w : CmdWord} {s t : State} (h : runWord w s = .next t) :
    t.klen.val = (refExec (keysOf s) w).1.length := by
  obtain ⟨t', ht', -, href⟩ := runWord_refinesRef w s
  obtain rfl : t = t' := Host.Outcome.next.inj (h.symm.trans ht')
  rw [← href, keysOf_length]

/-- Settles O45: KLEN is the length of the key list, so the key-list function says what every command makes of it. -/
theorem klenChangesOnlyByItsEvents : Obligations.KlenChangesOnlyByItsEvents := by
  refine ⟨fun s => Nat.le_of_lt_succ s.klen.isLt, fun idx s => ?_, fun b n s => ?_, fun s t p rest hhost hstep => ?_⟩
  · obtain ⟨t, ht, hklen, hrsp⟩ := exec_klen_rsp_of_keys_kept (refCommand_kread_keys (keysOf s) idx)
    exact ⟨t, ht, hklen, by rw [hrsp, refCommand_kread_ok_iff, keysOf_length]⟩
  · obtain ⟨t, ht, hklen, hrsp⟩ := exec_klen_rsp_of_keys_kept (refCommand_encrypt_keys (keysOf s) b n)
    exact ⟨t, ht, hklen, by rw [hrsp, refCommand_encrypt_ok_iff, keysOf_length]⟩
  · obtain ⟨hnil, -⟩ | ⟨p', rest', hhost', hcases⟩ := step_cases hstep
    · cases hhost.symm.trans hnil
    · obtain ⟨rfl, rfl⟩ := List.cons.inj (hhost.symm.trans hhost')
      obtain ⟨hev, rfl⟩ | ⟨hev, rfl⟩ | ⟨hev, rfl⟩ | ⟨w, hev, hrun⟩ := hcases <;> rw [hev]
      · rfl
      · rfl
      · rfl
      · rw [runWord_klen hrun, keysOf_acceptedState, ← keysOf_length s, refExec]
        dsimp only
        cases decode w with
        | error e => rfl
        | ok i =>
          cases i with
          | keygen mkey n => exact refCommand_keygen_length (keysOf s) mkey n
          | encrypt block n => exact congrArg List.length (refCommand_encrypt_keys (keysOf s) block n)
          | decrypt block n => exact congrArg List.length (refCommand_decrypt_keys (keysOf s) block n)
          | kpush key => exact refCommand_kpush_length (keysOf_length_le s) key
          | kread idx => exact congrArg List.length (refCommand_kread_keys (keysOf s) idx)
          | expand | confuse | feistel | round | roundf | kclr => rfl

end Sys2Proof.Machine
end

section
/-! SUPPORT and PROOFS for the family `20_memory`: a step runs the presented word when the core is idle, and accepts none while
it is busy, so that the key store waits with it (spec/20_memory.md R47, R49). -/

namespace Sys2Proof.Machine

/-! ### What runs: the decoded command (spec/30_encoding.md R67) -/

theorem runWord_of_decode_ok {w : CmdWord} {i : Instr} (h : decode w = .ok i) (s : State) : runWord w s = exec i s := by
  simp only [runWord, h]

theorem decodeTableWord_eq_some_iff {nbits w : Nat} {i : Instr} :
    decodeTableWord nbits w = some i ↔ decode (BitVec.ofNat 32 (w % 2 ^ nbits)) = .ok i := by
  unfold decodeTableWord
  cases decode (BitVec.ofNat 32 (w % 2 ^ nbits)) with
  | ok j => simp
  | error e => simp

/-! ### When a word is accepted (spec/30_encoding.md R69) -/

/-- A host that goes on presenting the word it presented before, or presented none, keeps the handshake (R211). -/
theorem keepsHeld_of_presented {p : HostPins} {s : State} (hheld : s.held = none ∨ s.held = p.presented) :
    keepsHeld p s = true := by
  unfold keepsHeld
  obtain hnone | hsame := hheld
  · rw [hnone]
  · rw [hsame]
    cases p.presented with
    | none => rfl
    | some w => exact decide_eq_true rfl

/-- A core that is not busy and has no response pending accepts the word a conforming host presents. -/
theorem portEvent_accept_of_ready {s : State} {p : HostPins} (hrst : p.rst = false) (hcmd : p.cmdValid = true)
    (hbusy : s.busy = false) (hvalid : s.rspValid = false) (hkeeps : keepsHeld p s = true) :
    portEvent p s = .accept p.cmd := by
  simp [portEvent, cmdReady, rspValidOut, hrst, hcmd, hbusy, hvalid, hkeeps]

/-- An accepted word is one presented to a ready core: `cmd_ready` is 1. -/
theorem cmdReady_of_portEvent_accept {p : HostPins} {s : State} {w : CmdWord} (h : portEvent p s = .accept w) :
    cmdReady p.rst s = true := by
  unfold portEvent at h
  split_ifs at h with _ _ _ _ hready
  obtain ⟨hready, -⟩ := Bool.and_eq_true_iff.mp hready
  exact hready

theorem cmdReady_of_busy {s : State} (rst : Bool) (hbusy : s.busy = true) : cmdReady rst s = false := by
  simp [cmdReady, hbusy]

theorem portEvent_ne_accept_of_busy {s : State} (p : HostPins) (hbusy : s.busy = true) (w : CmdWord) :
    portEvent p s ≠ .accept w := by
  intro hev
  have hready := cmdReady_of_portEvent_accept hev
  rw [cmdReady_of_busy p.rst hbusy] at hready
  cases hready

/-- Reset is the event of every sample with `rst` at 1 and of no other (spec/70_reset_and_hazards.md R200). -/
theorem portEvent_eq_reset_iff {p : HostPins} {s : State} : portEvent p s = .reset ↔ p.rst = true := by
  unfold portEvent
  split_ifs with hrst <;> simp [hrst]

/-! ### The statements -/

/-- Settles O38: the presented word is accepted, and an accepted word runs as the command it decodes to. -/
theorem stepRunsDecodedCommand : Obligations.StepRunsDecodedCommand := by
  refine ⟨fun s p rest i hhost hrst hcmd hbusy hvalid hheld hdec => ?_, fun s nbits w i hdec => ?_⟩
  · have hpresented : p.presented = some p.cmd := if_pos hcmd
    have hkeeps := keepsHeld_of_presented (p := p) (s := s) (hpresented ▸ hheld)
    rw [step_of_accept hhost (portEvent_accept_of_ready hrst hcmd hbusy hvalid hkeeps), runWord_of_decode_ok hdec]
    rfl
  · have hidle : (s.withFetchWord nbits w).idle := ⟨rfl, rfl, rfl⟩
    rw [step_of_accept rfl (portEvent_pinsPresent hidle _), runWord_of_decode_ok (decodeTableWord_eq_some_iff.mp hdec)]
    rfl

/-- Settles O41: of a step's events, reset needs `rst` and acceptance an idle core; taking the response and waiting keep RK and
KLEN. -/
theorem busyCoreKeepsKeyStore : Obligations.BusyCoreKeepsKeyStore := by
  intro s t p rest hhost hbusy hrst
  have hno := portEvent_ne_accept_of_busy p hbusy
  refine ⟨hno, fun hstep => ?_⟩
  obtain ⟨hnil, -⟩ | ⟨p', rest', hhost', hcases⟩ := step_cases hstep
  · cases hhost.symm.trans hnil
  · obtain ⟨rfl, rfl⟩ := List.cons.inj (hhost.symm.trans hhost')
    obtain ⟨hev, -⟩ | ⟨-, rfl⟩ | ⟨-, rfl⟩ | ⟨w, hev, -⟩ := hcases
    · cases hrst.symm.trans (portEvent_eq_reset_iff.mp hev)
    · exact ⟨rfl, rfl⟩
    · exact ⟨rfl, rfl⟩
    · exact absurd hev (hno w)

end Sys2Proof.Machine
end

section
/-! SUPPORT and PROOFS for the family `30_encoding`: the decoder, the encoder, the opcode map and the assembler read off the
four fields of a word (spec/30_encoding.md R60 to R74), and the response on the port (R69 to R72). -/

namespace Sys2Proof.Machine

/-! ### The layout of command and response words (spec/30_encoding.md R60, R70) -/

/-- Words with the same four fields are the same word. -/
theorem cmdWord_eq_iff {u v : CmdWord} :
    u = v ↔ fieldOP u = fieldOP v ∧ fieldN u = fieldN v ∧ fieldA u = fieldA v ∧ fieldK u = fieldK v := by
  constructor
  · rintro rfl
    exact ⟨rfl, rfl, rfl, rfl⟩
  · rintro ⟨hop, hn, ha, hk⟩
    rw [← mkWord_fields u, hop, hn, ha, hk, mkWord_fields]

/-- Masking a word masks each of its fields. -/
theorem and_eq_iff_fields {w mask v : CmdWord} :
    w &&& mask = v ↔ fieldOP w &&& fieldOP mask = fieldOP v ∧ fieldN w &&& fieldN mask = fieldN v ∧
      fieldA w &&& fieldA mask = fieldA v ∧ fieldK w &&& fieldK mask = fieldK v := by
  rw [cmdWord_eq_iff]
  simp only [fieldOP, fieldN, fieldA, fieldK, BitVec.extractLsb'_and]

/-- Settles O16: the word is its fields one after the other, and each field is a quotient and remainder of the word's value. -/
theorem commandWordLayout : Obligations.CommandWordLayout := by
  refine ⟨fun op n a k => ?_, fun w => ?_⟩
  · exact (BitVec.setWidth_eq _).symm.trans BitVec.setWidth_append_append_append_eq_shiftLeft_setWidth_or
  · have := w.isLt
    simp only [fieldOP, fieldN, fieldA, fieldK, BitVec.extractLsb'_toNat, Nat.shiftRight_eq_div_pow]
    omega

/-- Settles O19: the status stands above the result, with R71's codes. -/
theorem responseWordLayout : Obligations.ResponseWordLayout := by
  refine ⟨fun st res => ?_, rfl, rfl, rfl, rfl⟩
  exact (BitVec.setWidth_eq _).symm.trans BitVec.setWidth_append_eq_shiftLeft_setWidth_or

/-! ### Which command a word carries (spec/30_encoding.md R62, R64, R67) -/

/-- The word has the command's opcode, and the command's operands in the bits R62 takes them from. -/
def Carries (w : CmdWord) : Instr → Prop
  | .expand half => fieldOP w = 0x1 ∧ operandHalf w = half
  | .confuse val => fieldOP w = 0x2 ∧ operandVal w = val
  | .feistel half key => fieldOP w = 0x3 ∧ operandHalf w = half ∧ operandKey w = key
  | .round block key => fieldOP w = 0x4 ∧ operandFin w = false ∧ operandBlock w = block ∧ operandKey w = key
  | .roundf block key => fieldOP w = 0x4 ∧ operandFin w = true ∧ operandBlock w = block ∧ operandKey w = key
  | .keygen mkey n => fieldOP w = 0x5 ∧ operandCount w = n ∧ operandMkey w = mkey
  | .encrypt block n => fieldOP w = 0x6 ∧ operandCount w = n ∧ operandBlock w = block
  | .decrypt block n => fieldOP w = 0x7 ∧ operandCount w = n ∧ operandBlock w = block
  | .kclr => fieldOP w = 0x8
  | .kpush key => fieldOP w = 0x9 ∧ operandKey w = key
  | .kread idx => fieldOP w = 0xA ∧ operandIndex w = idx

theorem carries_of_decode {w : CmdWord} {i : Instr} (h : decode w = .ok i) : Carries w i := by
  have hop {op : BitVec 4} (hval : (fieldOP w).toNat = op.toNat) : fieldOP w = op := BitVec.eq_of_toNat_eq hval
  unfold decode at h
  split at h
  case h_4 hval =>
    split at h
    case isTrue hfin => cases h; exact ⟨hop hval, hfin, rfl, rfl⟩
    case isFalse hfin => cases h; exact ⟨hop hval, Bool.eq_false_iff.mpr hfin, rfl, rfl⟩
  case h_8 hval => cases h; exact hop hval
  case h_11 => cases h
  case h_1 hval | h_2 hval | h_9 hval | h_10 hval => cases h; exact ⟨hop hval, rfl⟩
  case h_3 hval | h_5 hval | h_6 hval | h_7 hval => cases h; exact ⟨hop hval, rfl, rfl⟩

theorem decode_of_carries {w : CmdWord} {i : Instr} (h : Carries w i) : decode w = .ok i := by
  cases i with
  | kclr => simp [decode, show fieldOP w = 0x8 from h]
  | expand | confuse | kpush | kread =>
    obtain ⟨hop, rfl⟩ := h
    simp [decode, hop]
  | feistel | keygen | encrypt | decrypt =>
    obtain ⟨hop, rfl, rfl⟩ := h
    simp [decode, hop]
  | round | roundf =>
    obtain ⟨hop, hfin, rfl, rfl⟩ := h
    simp [decode, hop, hfin]

/-- The decoder answers the command a word carries. -/
theorem decode_eq_ok_iff {w : CmdWord} {i : Instr} : decode w = .ok i ↔ Carries w i :=
  ⟨carries_of_decode, decode_of_carries⟩

theorem not_reserved_of_decode {w : CmdWord} {i : Instr} (h : decode w = .ok i) : reservedOpcode (fieldOP w) = false := by
  have hcarries := carries_of_decode h
  cases i with
  | kclr => simp [reservedOpcode, show fieldOP w = 0x8 from hcarries]
  | _ => simp [reservedOpcode, hcarries.1]

theorem reserved_of_decode_error {w : CmdWord} {e : DecodeError} (h : decode w = .error e) :
    reservedOpcode (fieldOP w) = true ∧ e = .reservedOpcode (fieldOP w) := by
  unfold decode at h
  split at h
  case h_4 => split at h <;> cases h
  case h_11 =>
    cases h
    refine ⟨?_, rfl⟩
    rw [reservedOpcode, decide_eq_true_iff]
    simp only [imp_false] at *
    omega
  all_goals cases h

/-- The decoder rejects the reserved opcodes, by name, and no other (R65). -/
theorem decode_eq_error_iff {w : CmdWord} :
    decode w = .error (.reservedOpcode (fieldOP w)) ↔ reservedOpcode (fieldOP w) = true := by
  refine ⟨fun h => (reserved_of_decode_error h).1, fun hreserved => ?_⟩
  cases hdec : decode w with
  | ok i => cases hreserved.symm.trans (not_reserved_of_decode hdec)
  | error e => rw [(reserved_of_decode_error hdec).2]

/-- Decoding is total: an opcode that is not reserved gives a command (R64). -/
theorem exists_decode_of_not_reserved {w : CmdWord} (h : reservedOpcode (fieldOP w) = false) : ∃ i, decode w = .ok i := by
  cases hdec : decode w with
  | ok i => exact ⟨i, rfl⟩
  | error e => cases h.symm.trans (reserved_of_decode_error hdec).1

/-! ### The used bits of a command (spec/30_encoding.md R61, R63) -/

/-- The low `n` bits of the field A. -/
def lowMask (n : Nat) : BitVec 16 := (BitVec.allOnes n).setWidth 16

/-- The used bits field by field: the opcode and the operands of R62. -/
def usedFields : Instr → CmdWord
  | .expand _ => mkWord 0xF 0 (lowMask 6) 0
  | .confuse _ => mkWord 0xF 0 (lowMask 8) 0
  | .feistel _ _ => mkWord 0xF 0 (lowMask 6) 0xFF
  | .round _ _ => mkWord 0xF 1 (lowMask 12) 0xFF
  | .roundf _ _ => mkWord 0xF 1 (lowMask 12) 0xFF
  | .keygen _ _ => mkWord 0xF 0xF (lowMask 9) 0
  | .encrypt _ _ => mkWord 0xF 0xF (lowMask 12) 0
  | .decrypt _ _ => mkWord 0xF 0xF (lowMask 12) 0
  | .kclr => mkWord 0xF 0 0 0
  | .kpush _ => mkWord 0xF 0 0 0xFF
  | .kread _ => mkWord 0xF 0xF 0 0

theorem usedBits_eq_usedFields (i : Instr) : i.usedBits = usedFields i := by
  cases i <;> rfl

/-- What stands in the low bits of A after masking is the operand taken from them (R62, R74). -/
theorem and_lowMask_eq_setWidth_iff {n : Nat} (h : n ≤ 16) {a : BitVec 16} {x : BitVec n} :
    a &&& lowMask n = x.setWidth 16 ↔ a.extractLsb' 0 n = x := by
  constructor
  · intro hx
    rw [← extract_setWidth x h, ← hx, BitVec.extractLsb'_and, lowMask, extract_setWidth _ h, BitVec.and_allOnes]
  · rintro rfl
    ext i hi
    simp [lowMask, BitVec.getLsbD_eq_getElem, hi, Bool.and_comm]

theorem and_ones4 (n : BitVec 4) : n &&& 15#4 = n := BitVec.and_allOnes
theorem and_ones8 (k : BitVec 8) : k &&& 255#8 = k := BitVec.and_allOnes

/-! Bit 24 is the one bit of N that ROUND and ROUNDF use (R62, R64). -/

theorem and_one_eq_zero_iff (n : BitVec 4) : n &&& 1#4 = 0#4 ↔ n[0] = false := by
  decide +revert

theorem and_one_eq_one_iff (n : BitVec 4) : n &&& 1#4 = 1#4 ↔ n[0] = true := by
  decide +revert

/-- A word carries a command exactly when its used bits are those of the command's word: the decoder reads the bits the encoder
writes, and no others. -/
theorem carries_iff_and_usedBits {w : CmdWord} {i : Instr} : Carries w i ↔ w &&& i.usedBits = encode i := by
  rw [usedBits_eq_usedFields]
  cases i <;>
    simp [Carries, usedFields, encode, and_eq_iff_fields, and_lowMask_eq_setWidth_iff, and_ones4, and_ones8,
      and_one_eq_zero_iff, and_one_eq_one_iff, operandHalf, operandVal, operandBlock, operandMkey, operandKey,
      operandCount, operandIndex, operandFin]

theorem decode_eq_ok_iff_and_usedBits {w : CmdWord} {i : Instr} : decode w = .ok i ↔ w &&& i.usedBits = encode i :=
  decode_eq_ok_iff.trans carries_iff_and_usedBits

/-- The encoder writes the operands where R62 takes them from. -/
theorem encode_carries (i : Instr) : Carries (encode i) i := by
  cases i <;>
    simp [Carries, encode, operandHalf, operandVal, operandBlock, operandMkey, operandKey, operandCount, operandIndex,
      operandFin, extract_setWidth]

/-- Settles O12: the command's word carries the command. -/
theorem decodeInvertsEncode : Obligations.DecodeInvertsEncode := fun i => decode_of_carries (encode_carries i)

/-- Settles O13: the decoder reads the used bits, which are the encoder's. -/
theorem encodeInvertsDecodeUpToIgnoredBits : Obligations.EncodeInvertsDecodeUpToIgnoredBits :=
  fun _ _ hdec => (decode_eq_ok_iff_and_usedBits.mp hdec).symm

/-- The encoder writes zeros in the bits the command does not use (R74). -/
theorem encode_and_usedBits (i : Instr) : encode i &&& i.usedBits = encode i :=
  decode_eq_ok_iff_and_usedBits.mp (decodeInvertsEncode i)

/-- An idle core runs the word of a sample that presents one. -/
theorem step_of_idle {s : State} {p : HostPins} {rest : List HostPins} (hhost : s.host = p :: rest) (hidle : s.idle)
    (hrst : p.rst = false) (hcmd : p.cmdValid = true) : step s = runWord p.cmd (acceptedState rest s) := by
  obtain ⟨hbusy, hvalid, hheld⟩ := hidle
  exact step_of_accept hhost
    (portEvent_accept_of_ready hrst hcmd hbusy hvalid (keepsHeld_of_presented (.inl hheld)))

/-- Settles O14: both words have the used bits of the one command, and the idle core runs that command. -/
theorem ignoredBitsChangeNothing : Obligations.IgnoredBitsChangeNothing := by
  refine ⟨fun w w' i hdec hsame => ?_, fun i => ?_⟩
  · have hdec' : decode w' = .ok i :=
      decode_eq_ok_iff_and_usedBits.mpr (hsame.trans (decode_eq_ok_iff_and_usedBits.mp hdec))
    refine ⟨hdec', fun s p rest hrst hcmd hidle => ?_⟩
    have hstep {v : CmdWord} (hv : decode v = .ok i) :
        step { s with host := { p with cmd := v } :: rest } = exec i (acceptedState rest s) := by
      have hidle' : State.idle { s with host := { p with cmd := v } :: rest } := hidle
      exact (step_of_idle (p := { p with cmd := v }) rfl hidle' hrst hcmd).trans (runWord_of_decode_ok hv _)
    rw [hstep hdec', hstep hdec]
  · rw [← encode_and_usedBits i, BitVec.and_assoc, BitVec.and_not_self]
    exact BitVec.and_zero

/-! ### The opcode map (spec/30_encoding.md R64) -/

/-- Besides OP the map looks at bit 24, for OP = 0x4. -/
theorem selects_iff {r : OpcodeRow} (hr : r ∈ opcodeTable) (w : CmdWord) : r.selects w = true ↔
    fieldOP w = fieldOP r.pattern ∧ (fieldOP r.pattern = 0x4 → operandFin w = operandFin r.pattern) := by
  have hunused : ∀ r ∈ opcodeTable, fieldOP r.mask = 0xF ∧ fieldA r.mask = 0 ∧ fieldK r.mask = 0 ∧
      fieldA r.pattern = 0 ∧ fieldK r.pattern = 0 := by decide
  have hbit24 : ∀ r ∈ opcodeTable, if fieldOP r.pattern = 0x4
      then fieldN r.mask = 1 ∧ fieldN r.pattern = if operandFin r.pattern then 1 else 0
      else fieldN r.mask = 0 ∧ fieldN r.pattern = 0 := by decide
  obtain ⟨hop, hma, hmk, hpa, hpk⟩ := hunused r hr
  specialize hbit24 r hr
  rw [OpcodeRow.selects, beq_iff_eq, and_eq_iff_fields, hop, hma, hmk, hpa, hpk]
  split at hbit24
  case isTrue hround =>
    obtain ⟨hmn, hpn⟩ := hbit24
    rw [hmn, hpn]
    cases operandFin r.pattern <;>
      simp [hround, and_ones4, and_one_eq_zero_iff, and_one_eq_one_iff, operandFin]
  case isFalse hround =>
    obtain ⟨hmn, hpn⟩ := hbit24
    rw [hmn, hpn]
    simp only [hround, false_implies]
    simp [and_ones4]

/-- The word of a command is selected by the row of the command's mnemonic. -/
theorem exists_row_of_carries {w : CmdWord} {i : Instr} (h : Carries w i) :
    ∃ r ∈ opcodeTable, r.mnemonic = i.mnemonic ∧ r.selects w = true := by
  have row (k : Fin 11) (hop : fieldOP w = fieldOP opcodeTable[k].pattern)
      (hfin : fieldOP opcodeTable[k].pattern ≠ 0x4 ∨ operandFin w = operandFin opcodeTable[k].pattern)
      (hname : opcodeTable[k].mnemonic = i.mnemonic) : ∃ r ∈ opcodeTable, r.mnemonic = i.mnemonic ∧ r.selects w = true :=
    ⟨opcodeTable[k], List.getElem_mem k.isLt, hname,
      (selects_iff (List.getElem_mem k.isLt) w).mpr ⟨hop, hfin.neg_resolve_left⟩⟩
  cases i with
  | expand => exact row 0 h.1 (.inl (by decide)) rfl
  | confuse => exact row 1 h.1 (.inl (by decide)) rfl
  | feistel => exact row 2 h.1 (.inl (by decide)) rfl
  | round =>
    obtain ⟨hop, hfin, -⟩ := h
    exact row 3 hop (.inr hfin) rfl
  | roundf =>
    obtain ⟨hop, hfin, -⟩ := h
    exact row 4 hop (.inr hfin) rfl
  | keygen => exact row 5 h.1 (.inl (by decide)) rfl
  | encrypt => exact row 6 h.1 (.inl (by decide)) rfl
  | decrypt => exact row 7 h.1 (.inl (by decide)) rfl
  | kclr => exact row 8 h (.inl (by decide)) rfl
  | kpush => exact row 9 h.1 (.inl (by decide)) rfl
  | kread => exact row 10 h.1 (.inl (by decide)) rfl

/-- No word is selected by two rows. -/
theorem row_unique {r r' : OpcodeRow} (hr : r ∈ opcodeTable) (hr' : r' ∈ opcodeTable) {w : CmdWord}
    (h : r.selects w = true) (h' : r'.selects w = true) : r = r' := by
  obtain ⟨hop, hfin⟩ := (selects_iff hr w).mp h
  obtain ⟨hop', hfin'⟩ := (selects_iff hr' w).mp h'
  have hrows : ∀ r ∈ opcodeTable, ∀ r' ∈ opcodeTable, fieldOP r.pattern = fieldOP r'.pattern →
      (fieldOP r.pattern = 0x4 → operandFin r.pattern = operandFin r'.pattern) → r = r' := by decide
  refine hrows r hr r' hr' (hop.symm.trans hop') fun hround => ?_
  exact (hfin hround).symm.trans (hfin' (hop'.symm.trans (hop.trans hround)))

theorem row_unique_of_mnemonic {r r' : OpcodeRow} (hr : r ∈ opcodeTable) (hr' : r' ∈ opcodeTable)
    (h : r.mnemonic = r'.mnemonic) : r = r' := by
  have hrows : ∀ r ∈ opcodeTable, ∀ r' ∈ opcodeTable, r.mnemonic = r'.mnemonic → r = r' := by decide
  exact hrows r hr r' hr' h

theorem not_reserved_of_selects {r : OpcodeRow} (hr : r ∈ opcodeTable) {w : CmdWord} (h : r.selects w = true) :
    reservedOpcode (fieldOP w) = false := by
  have hrows : ∀ r ∈ opcodeTable, reservedOpcode (fieldOP r.pattern) = false := by decide
  rw [((selects_iff hr w).mp h).1]
  exact hrows r hr

/-- Settles O15: every word that is not reserved carries a command, and the row of its mnemonic is the one row that selects the
word. -/
theorem opcodeMapIsTotalAndUnambiguous : Obligations.OpcodeMapIsTotalAndUnambiguous := by
  intro w
  have hrow {i : Instr} (hdec : decode w = .ok i) := exists_row_of_carries (carries_of_decode hdec)
  refine ⟨fun r hr => ⟨fun hsel => ?_, fun ⟨i, hdec, hname⟩ => ?_⟩, fun r hr r' hr' => row_unique hr hr',
    ⟨fun ⟨r, hr, hsel⟩ => not_reserved_of_selects hr hsel, fun hfree => ?_⟩, decode_eq_error_iff.symm⟩
  · obtain ⟨i, hdec⟩ := exists_decode_of_not_reserved (not_reserved_of_selects hr hsel)
    obtain ⟨r', hr', hname, hsel'⟩ := hrow hdec
    exact ⟨i, hdec, by rw [row_unique hr hr' hsel hsel', hname]⟩
  · obtain ⟨r', hr', hname', hsel'⟩ := hrow hdec
    rwa [row_unique_of_mnemonic hr hr' (hname.symm.trans hname'.symm)]
  · obtain ⟨i, hdec⟩ := exists_decode_of_not_reserved hfree
    obtain ⟨r, hr, -, hsel⟩ := hrow hdec
    exact ⟨r, hr, hsel⟩

/-! ### Assembly lines (spec/30_encoding.md R74) -/

theorem wellFormed_line (i : Instr) : i.line.wellFormed = true := by
  cases i with
  | expand half => exact Laws.OperandsFit.expand half
  | confuse val => exact Laws.OperandsFit.confuse val
  | feistel half key => exact Laws.OperandsFit.feistel half key
  | round block key => exact Laws.OperandsFit.round block key
  | roundf block key => exact Laws.OperandsFit.roundf block key
  | keygen mkey n => exact Laws.OperandsFit.keygen mkey n
  | encrypt block n => exact Laws.OperandsFit.encrypt block n
  | decrypt block n => exact Laws.OperandsFit.decrypt block n
  | kclr => exact Laws.OperandsFit.kclr
  | kpush key => exact Laws.OperandsFit.kpush key
  | kread idx => exact Laws.OperandsFit.kread idx

/-- The line a disassembler prints for a command assembles to the command's word. -/
theorem assemble_line (i : Instr) : i.line.assemble = some (encode i) := by
  unfold AsmLine.assemble
  rw [if_pos (wellFormed_line i)]
  cases i <;> simp [Instr.line, encode]

/-- A word printed as data comes back as it was. -/
theorem assemble_word (w : CmdWord) : (AsmLine.word w.toNat).assemble = some w := by
  have hfits : (AsmLine.word w.toNat).wellFormed = true := decide_eq_true w.isLt
  simp [AsmLine.assemble, hfits]

/-- Settles O17: a command's line assembles to the command's word, a reserved word is printed as data. -/
theorem assembleDisassembly : Obligations.AssembleDisassembly := by
  intro w
  unfold disassemble
  cases hdec : decode w with
  | ok i =>
    refine ⟨encode i, assemble_line i, decodeInvertsEncode i, fun hreserved => ?_⟩
    cases hreserved.symm.trans (not_reserved_of_decode hdec)
  | error e => exact ⟨w, assemble_word w, hdec, fun _ => rfl⟩

/-- Settles O18: the decoder evaluated on the seven words. -/
theorem sampleWordsDecode : Obligations.SampleWordsDecode := by
  unfold Obligations.SampleWordsDecode
  decide

/-! ### Every response is legal (spec/30_encoding.md R71, R72) -/

theorem legalResponse_packRsp_ok (res : ResultField) : legalResponse (packRsp .ok res) := by
  simp [legalResponse, statusCode]

theorem legalResponse_packRsp_zero (st : Status) : legalResponse (packRsp st 0) := by
  cases st <;> simp [legalResponse, statusCode]

theorem legalResponse_refCommand (keys : List RoundKey) (i : Instr) : legalResponse (refCommand keys i).2 := by
  cases i with
  | expand | confuse | feistel | round | roundf | kclr => exact legalResponse_packRsp_ok _
  | keygen | encrypt | decrypt | kpush =>
    simp only [refCommand]
    split
    · exact legalResponse_packRsp_zero _
    · exact legalResponse_packRsp_ok _
  | kread =>
    simp only [refCommand]
    split
    · exact legalResponse_packRsp_ok _
    · exact legalResponse_packRsp_zero _

theorem legalResponse_refExec (keys : List RoundKey) (w : CmdWord) : legalResponse (refExec keys w).2 := by
  unfold refExec
  split
  · exact legalResponse_refCommand _ _
  · exact legalResponse_packRsp_zero _

theorem runDriver_busy (d : Direction) (block : Block) (n : Count) (s : State) : (runDriver d block n s).busy = true := by
  rw [runDriver_eq]
  split <;> rfl

/-- No command clears BUSY: that is for the host that takes the response (R69). -/
theorem exec_busy {i : Instr} {s t : State} (hbusy : s.busy = true) (h : exec i s = .next t) : t.busy = true := by
  cases i with
  | keygen mkey n =>
    simp only [exec, execKeygen] at h
    split at h <;> cases h <;> simp [hbusy]
  | encrypt block n => cases h; exact runDriver_busy .encrypt block n s
  | decrypt block n => cases h; exact runDriver_busy .decrypt block n s
  | kpush key =>
    simp only [exec, execKpush] at h
    split at h <;> cases h <;> exact hbusy
  | kread idx =>
    simp only [exec, execKread] at h
    split at h <;> cases h <;> exact hbusy
  | expand | confuse | feistel | round | roundf | kclr => cases h; exact hbusy

theorem runWord_busy {w : CmdWord} {s t : State} (hbusy : s.busy = true) (h : runWord w s = .next t) : t.busy = true := by
  unfold runWord at h
  split at h
  · exact exec_busy hbusy h
  · cases h
    exact hbusy

/-- An accepted word runs to a legal response, pending on the port. -/
theorem runWord_legal (w : CmdWord) {s : State} (hbusy : s.busy = true) :
    ∃ t, runWord w s = .next t ∧ t.busy = true ∧ t.rspValid = true ∧ legalResponse t.rsp := by
  obtain ⟨t, hrun, hvalid, href⟩ := runWord_refinesRef w s
  obtain ⟨-, hrsp⟩ := Prod.ext_iff.mp href
  refine ⟨t, hrun, runWord_busy hbusy hrun, hvalid, ?_⟩
  have hlegal := legalResponse_refExec (keysOf s) w
  rwa [← hrsp] at hlegal

/-- Settles O49: reset and taking the response leave none pending, waiting keeps the one pending, and an accepted word is
answered. -/
theorem stepKeepsTheInvariant : Obligations.StepKeepsTheInvariant := by
  intro s t hinv hstep
  obtain ⟨-, rfl⟩ | ⟨p, rest, -, hcases⟩ := step_cases hstep
  · exact hinv
  · obtain ⟨-, rfl⟩ | ⟨-, rfl⟩ | ⟨-, rfl⟩ | ⟨w, -, hrun⟩ := hcases
    · exact ⟨rfl, fun hvalid => Bool.noConfusion hvalid⟩
    · exact ⟨rfl, fun hvalid => Bool.noConfusion hvalid⟩
    · exact hinv
    · obtain ⟨t', hrun', hbusy, hvalid, hlegal⟩ := runWord_legal w (s := acceptedState rest s) rfl
      obtain rfl : t = t' := Host.Outcome.next.inj (hrun.symm.trans hrun')
      exact ⟨hbusy.trans hvalid.symm, fun _ => hlegal⟩

/-- Settles O39: the idle core accepts the word, and running it leaves a legal response pending. -/
theorem acceptedWordIsAnswered : Obligations.AcceptedWordIsAnswered := by
  intro s p rest hhost hidle hrst hcmd
  obtain ⟨t, hrun, hbusy, hvalid, hlegal⟩ := runWord_legal p.cmd (s := acceptedState rest s) rfl
  obtain ⟨-, hrest⟩ := runWord_held_host hrun
  refine ⟨t, (step_of_idle hhost hidle hrst hcmd).trans hrun, ?_, hlegal, cmdReady_of_busy false hbusy, hrest⟩
  simp [rspValidOut, hvalid]

/-! ### A pending response (spec/30_encoding.md R69) -/

/-- With a response pending a conforming host's sample is waiting or taking, as `rsp_ready` says. -/
theorem portEvent_of_pending {s : State} {p : HostPins} (hbusy : s.busy = true) (hvalid : s.rspValid = true)
    (hrst : p.rst = false) (hkeeps : keepsHeld p s = true) : portEvent p s = if p.rspReady then .take else .wait := by
  simp [portEvent, rspValidOut, cmdReady, hbusy, hvalid, hrst, hkeeps]

/-- Settles O40: of the two events of a pending response, waiting moves the host's side only and taking frees the port. -/
theorem responseHeldUntilTaken : Obligations.ResponseHeldUntilTaken := by
  intro s p rest hhost hbusy hvalid hrst hheld
  have hev := portEvent_of_pending hbusy hvalid hrst (keepsHeld_of_presented hheld)
  refine ⟨fun hready => ?_, fun hready => ?_⟩
  · simp only [step, hhost, portStep, hev, hready]
    rfl
  · simp only [step, hhost, portStep, hev, hready]
    exact ⟨_, rfl, rfl, rfl, rfl, rfl, rfl⟩

end Sys2Proof.Machine
end

section
/-! PROOFS for the family `40_expand_confuse_feistel`: the three leaf functions bit by bit and entry by entry, and the commands
EXPAND, CONFUSE and FEISTEL (spec/40_expand_confuse_feistel.md R100 to R109). -/

namespace Sys2Proof.Machine

/-! ### The bit expander (spec/40_expand_confuse_feistel.md R100, R101) -/

/-- R100's wiring table: the input bit at output bits 0 to 7. -/
def expandWiring : List Nat := [0, 1, 3, 2, 3, 2, 4, 5]

/-- Every output bit of the expander is a copy of its input bit in R100's table, and there are eight of them. -/
theorem expand_getLsbD (h : Half) (j : Nat) : (expand h).getLsbD j = expandWiring[j]?.any h.getLsbD := by
  by_cases hj : j < 8
  · simp only [expand, halfBit, BitVec.getLsbD_append, BitVec.getLsbD_extractLsb']
    interval_cases j <;> simp [expandWiring]
  · rw [BitVec.getLsbD_of_ge _ _ (Nat.le_of_not_lt hj), List.getElem?_eq_none (Nat.le_of_not_lt hj), Option.any_none]

theorem expand_xor (a b : Half) : expand (a ^^^ b) = expand a ^^^ expand b := by
  apply BitVec.eq_of_getLsbD_eq
  intro j _
  simp only [BitVec.getLsbD_xor, expand_getLsbD]
  cases expandWiring[j]? with
  | none => rfl
  | some i => exact BitVec.getLsbD_xor

/-- The input bits read back from one copy of each, `{e[7], e[6], e[4], e[5], e[1], e[0]}` (R101). -/
def unexpand (e : Expanded) : Half :=
  e.extractLsb' 7 1 ++ e.extractLsb' 6 1 ++ e.extractLsb' 4 1 ++ e.extractLsb' 5 1 ++ e.extractLsb' 1 1 ++ e.extractLsb' 0 1

theorem unexpand_getLsbD (e : Expanded) {j : Nat} (hj : j < 6) :
    (unexpand e).getLsbD j = e.getLsbD (([0, 1, 5, 4, 6, 7] : List Nat).getD j 0) := by
  simp only [unexpand, BitVec.getLsbD_append, BitVec.getLsbD_extractLsb']
  interval_cases j <;> simp

/-- An output bit is recovered as the input bit it copies. -/
theorem unexpand_expand (h : Half) : unexpand (expand h) = h := by
  apply BitVec.eq_of_getLsbD_eq
  intro j hj
  rw [unexpand_getLsbD _ hj, expand_getLsbD]
  interval_cases j <;> rfl

/-- Where the doubled bits agree, every bit is the copy of a recovered one. -/
theorem expand_unexpand {e : Expanded} (h53 : e.getLsbD 5 = e.getLsbD 3) (h42 : e.getLsbD 4 = e.getLsbD 2) :
    expand (unexpand e) = e := by
  apply BitVec.eq_of_getLsbD_eq
  intro j hj
  rw [expand_getLsbD]
  have hbit (i : Fin 6) := unexpand_getLsbD e i.isLt
  interval_cases j
  · exact hbit 0
  · exact hbit 1
  · exact (hbit 3).trans h42
  · exact (hbit 2).trans h53
  · exact hbit 3
  · exact hbit 2
  · exact hbit 4
  · exact hbit 5

theorem exists_expand_eq_iff (e : Expanded) :
    (∃ h, expand h = e) ↔ e.getLsbD 5 = e.getLsbD 3 ∧ e.getLsbD 4 = e.getLsbD 2 := by
  constructor
  · rintro ⟨h, rfl⟩
    simp only [expand_getLsbD]
    exact ⟨rfl, rfl⟩
  · rintro ⟨h53, h42⟩
    exact ⟨unexpand e, expand_unexpand h53 h42⟩

/-- Settles O20: expansion copies bits, and `unexpand` reads each of them back. -/
theorem expandLinearAndInjective : Obligations.ExpandLinearAndInjective := by
  refine ⟨expand_xor, fun h j hj => ?_, exists_expand_eq_iff, rfl, rfl⟩
  rw [← unexpand_getLsbD _ hj, unexpand_expand]

/-! ### The S-boxes and the confuse function (spec/40_expand_confuse_feistel.md R103 to R106) -/

/-- The first box holds R104's list. -/
theorem s1_toNat (i : SboxIndex) :
    (s1 i).toNat = ([5, 2, 1, 6, 3, 4, 7, 0, 1, 4, 6, 2, 0, 7, 5, 3] : List Nat).getD i.toNat 0 := by
  decide +revert

/-- The second box holds R105's list. -/
theorem s2_toNat (i : SboxIndex) :
    (s2 i).toNat = ([4, 0, 6, 5, 7, 1, 3, 2, 5, 3, 0, 7, 6, 2, 1, 4] : List Nat).getD i.toNat 0 := by
  decide +revert

theorem highNibble_toNat (v : Expanded) : (v.extractLsb' 4 4).toNat = v.toNat / 16 := by
  have := v.isLt
  simp only [BitVec.extractLsb'_toNat, Nat.shiftRight_eq_div_pow]
  omega

theorem lowNibble_toNat (v : Expanded) : (v.extractLsb' 0 4).toNat = v.toNat % 16 := by
  rw [BitVec.extractLsb'_toNat, Nat.shiftRight_zero]

/-- The two values are packed as `(s1_result << 3) | s2_result` (R106). -/
theorem confuse_toNat (v : Expanded) :
    (confuse v).toNat = (s1 (v.extractLsb' 4 4)).toNat * 8 + (s2 (v.extractLsb' 0 4)).toNat := by
  rw [confuse, BitVec.toNat_append, ← Nat.shiftLeft_add_eq_or_of_lt (BitVec.isLt _), Nat.shiftLeft_eq]

/-- The high nibble goes to the first box, the low nibble to the second (R106). -/
theorem confuse_append (hi lo : SboxIndex) : confuse (hi ++ lo) = s1 hi ++ s2 lo := by
  rw [confuse, BitVec.extractLsb'_append_eq_left, BitVec.extractLsb'_append_eq_right]

/-- Settles O21: the entries counted, for each of the eight values. -/
theorem sboxesTakeEachValueTwice : Obligations.SboxesTakeEachValueTwice := by
  unfold Obligations.SboxesTakeEachValueTwice
  decide

/-- Pairs that are picked by their two members independently are counted by the product of the two counts. -/
theorem countP_pairs {α β γ : Type} (f : α → β → γ) (p : α → Bool) (q : β → Bool) (r : γ → Bool)
    (hr : ∀ a b, r (f a b) = (p a && q b)) (as : List α) (bs : List β) :
    (as.flatMap fun a => bs.map (f a)).countP r = as.countP p * bs.countP q := by
  induction as with
  | nil => simp
  | cons a as ih =>
    have hrow : (bs.map (f a)).countP r = if p a then bs.countP q else 0 := by
      rw [List.countP_map]
      cases hp : p a <;> simp [Function.comp_def, hr, hp]
    rw [List.flatMap_cons, List.countP_append, hrow, ih, List.countP_cons]
    split <;> ring

/-- The numbers below `n * m` in order, as quotient and remainder by `m`. -/
theorem range_mul_eq_flatMap (n m : Nat) :
    List.range (n * m) = (List.range n).flatMap fun i => (List.range m).map fun j => i * m + j := by
  induction n with
  | zero => simp
  | succ n ih => simp [Nat.succ_mul, List.range_add, List.range_succ, List.flatMap_append, ih]

theorem ofNat_nibbles {lo : Nat} (hlo : lo < 16) (hi : Nat) :
    BitVec.ofNat 8 (hi * 16 + lo) = BitVec.ofNat 4 hi ++ BitVec.ofNat 4 lo := by
  apply BitVec.eq_of_toNat_eq
  rw [BitVec.toNat_append, ← Nat.shiftLeft_add_eq_or_of_lt (BitVec.isLt _), Nat.shiftLeft_eq]
  simp only [BitVec.toNat_ofNat]
  omega

/-- The sixteen S-box indices in order. -/
def sboxIndices : List SboxIndex := (List.range 16).map (BitVec.ofNat 4)

/-- The 256 inputs of confuse, in order, are the pairs of a high and a low nibble. -/
theorem range_256_eq_nibble_pairs :
    (List.range 256).map (BitVec.ofNat 8) = sboxIndices.flatMap fun hi => sboxIndices.map fun lo => hi ++ lo := by
  rw [show 256 = 16 * 16 from rfl, range_mul_eq_flatMap, List.map_flatMap, sboxIndices, List.flatMap_map]
  refine List.flatMap_congr fun hi _ => ?_
  rw [List.map_map, List.map_map]
  exact List.map_congr_left fun lo hlo => ofNat_nibbles (List.mem_range.mp hlo) hi

/-- A value is two given pieces joined exactly when they are its upper and its lower part. -/
theorem bitVec_append_eq_iff {n m : Nat} {x : BitVec n} {y : BitVec m} {z : BitVec (n + m)} :
    x ++ y = z ↔ x = z.extractLsb' m n ∧ y = z.extractLsb' 0 m := by
  constructor
  · rintro rfl
    exact ⟨BitVec.extractLsb'_append_eq_left.symm, BitVec.extractLsb'_append_eq_right.symm⟩
  · rintro ⟨rfl, rfl⟩
    simp [BitVec.extractLsb'_append_extractLsb'_eq_extractLsb']

/-- Settles O22: two indices of S1 hold the upper half of an output and two of S2 the lower, which makes two times two inputs. -/
theorem confuseIsFourToOne : Obligations.ConfuseIsFourToOne := by
  intro y
  have hsplit (hi lo : SboxIndex) :
      (confuse (hi ++ lo) == y) = ((s1 hi == y.extractLsb' 3 3) && (s2 lo == y.extractLsb' 0 3)) := by
    rw [Bool.eq_iff_iff, Bool.and_eq_true_iff, beq_iff_eq, beq_iff_eq, beq_iff_eq, confuse_append]
    exact bitVec_append_eq_iff
  obtain ⟨hs1, -⟩ := sboxesTakeEachValueTwice (y.extractLsb' 3 3)
  obtain ⟨-, hs2⟩ := sboxesTakeEachValueTwice (y.extractLsb' 0 3)
  rw [← List.countP_eq_length_filter] at hs1 hs2 ⊢
  rw [range_256_eq_nibble_pairs, countP_pairs _ _ _ _ hsplit, sboxIndices, hs1, hs2]

/-! ### Assembly (spec/30_encoding.md R74) -/

/-- A word whose field A is given as a number that fits it (R60, R74). -/
theorem mkWord_ofNat (op n : BitVec 4) {a : Nat} (ha : a < 65536) (k : BitVec 8) :
    mkWord op n (.ofNat 16 a) k =
      (op.setWidth 32 <<< 28) ||| (n.setWidth 32 <<< 24) ||| (BitVec.ofNat 32 a <<< 8) ||| k.setWidth 32 := by
  rw [commandWordLayout.1, BitVec.setWidth_ofNat_of_le_of_lt (by decide) ha]

/-! ### The commands (spec/40_expand_confuse_feistel.md R102, R107, R109) -/

/-- A response writes RSP and its valid signal only (spec/10_state.md R26). -/
theorem onlyResponseChanged_respond (st : Status) (res : ResultField) (s : State) :
    onlyResponseChanged s (respond st res s) := rfl

/-- Settles O1: EXPAND responds with the expanded half, whose bits are R100's, and zeros above them. -/
theorem expandCommand : Obligations.ExpandCommand := by
  refine ⟨fun half s => ⟨_, rfl, rfl, rspST_packRsp _ _, fun j hj => ?_, onlyResponseChanged_respond _ _ _⟩,
    fun w hop => decode_of_carries ⟨hop, rfl⟩, fun a ha => ?_⟩
  · rw [respond_rsp, rspRES_packRsp, BitVec.getLsbD_setWidth, decide_eq_true hj, Bool.true_and, expand_getLsbD,
      expandWiring]
    cases ([0, 1, 3, 2, 3, 2, 4, 5] : List Nat)[j]? <;> rfl
  · simp [AsmLine.assemble, AsmLine.wellFormed, fitsA, ha, mkWord_ofNat]

/-- Settles O2: CONFUSE responds with the packed entries of the two boxes. -/
theorem confuseCommand : Obligations.ConfuseCommand := by
  refine ⟨fun val s => ⟨_, rfl, rfl, rspST_packRsp _ _, ?_, onlyResponseChanged_respond _ _ _⟩,
    fun w hop => decode_of_carries ⟨hop, rfl⟩, fun a ha => ?_⟩
  · rw [respond_rsp, rspRES_packRsp, BitVec.toNat_setWidth_of_le (by decide), confuse_toNat, s1_toNat, s2_toNat,
      highNibble_toNat, lowNibble_toNat]
  · simp [AsmLine.assemble, AsmLine.wellFormed, fitsA, ha, mkWord_ofNat]

theorem feistel_expand_self (h : Half) : feistel h (expand h) = 0x2C := by
  rw [feistel, BitVec.xor_self]
  rfl

/-- Settles O3: FEISTEL responds with the function of the half and the key it carries. -/
theorem feistelCommand : Obligations.FeistelCommand := by
  refine ⟨fun half key s => ⟨_, rfl, rfl, rspST_packRsp _ _, rspRES_packRsp _ _, onlyResponseChanged_respond _ _ _⟩,
    feistel_expand_self, fun w hop => decode_of_carries ⟨hop, rfl, rfl⟩, fun a k ha hk => ?_⟩
  simp [AsmLine.assemble, AsmLine.wellFormed, fitsA, fitsK, ha, hk, mkWord_ofNat, BitVec.setWidth_ofNat_of_le_of_lt]

end Sys2Proof.Machine
end

section
/-! PROOFS for the family `41_round`: the halves of the two rounds and how each round is undone (spec/41_round.md R120 to R126), the
commands ROUND and ROUNDF, and a cipher call rebuilt from them (R127). -/

namespace Sys2Proof.Machine

/-! ### The halves of a block (spec/00_scope.md R8, spec/41_round.md R120 to R123) -/

@[simp] theorem leftHalf_joinHalves (l r : Half) : leftHalf (joinHalves l r) = l := BitVec.extractLsb'_append_eq_left
@[simp] theorem rightHalf_joinHalves (l r : Half) : rightHalf (joinHalves l r) = r := BitVec.extractLsb'_append_eq_right

theorem joinHalves_leftHalf_rightHalf (b : Block) : joinHalves (leftHalf b) (rightHalf b) = b :=
  bitVec_append_eq_iff.mpr ⟨rfl, rfl⟩

@[simp] theorem leftHalf_swapHalves (b : Block) : leftHalf (swapHalves b) = rightHalf b := leftHalf_joinHalves _ _
@[simp] theorem rightHalf_swapHalves (b : Block) : rightHalf (swapHalves b) = leftHalf b := rightHalf_joinHalves _ _
@[simp] theorem leftHalf_swapRound (b : Block) (k : RoundKey) : leftHalf (swapRound b k) = rightHalf b :=
  leftHalf_joinHalves _ _
@[simp] theorem rightHalf_swapRound (b : Block) (k : RoundKey) : rightHalf (swapRound b k) = mixedHalf b k :=
  rightHalf_joinHalves _ _
@[simp] theorem leftHalf_finalRound (b : Block) (k : RoundKey) : leftHalf (finalRound b k) = mixedHalf b k :=
  leftHalf_joinHalves _ _
@[simp] theorem rightHalf_finalRound (b : Block) (k : RoundKey) : rightHalf (finalRound b k) = rightHalf b :=
  rightHalf_joinHalves _ _

theorem mixedHalf_eq (b : Block) (k : RoundKey) : mixedHalf b k = leftHalf b ^^^ feistel (rightHalf b) k :=
  BitVec.xor_comm _ _

/-! ### The two rounds and the swap (spec/41_round.md R123, R126) -/

@[simp] theorem swapHalves_swapHalves (b : Block) : swapHalves (swapHalves b) = b := by
  rw [swapHalves, leftHalf_swapHalves, rightHalf_swapHalves, joinHalves_leftHalf_rightHalf]

@[simp] theorem swapHalves_swapRound (b : Block) (k : RoundKey) : swapHalves (swapRound b k) = finalRound b k := by
  rw [swapHalves, leftHalf_swapRound, rightHalf_swapRound, finalRound]

@[simp] theorem swapHalves_finalRound (b : Block) (k : RoundKey) : swapHalves (finalRound b k) = swapRound b k := by
  rw [← swapHalves_swapRound, swapHalves_swapHalves]

/-- Settles O23: the two rounds hold the same two halves in opposite order. -/
theorem roundVariantsDifferBySwap : Obligations.RoundVariantsDifferBySwap :=
  fun b k => ⟨(swapHalves_swapRound b k).symm, (swapHalves_finalRound b k).symm⟩

/-- Mixing the Feistel value in again takes it out. -/
theorem mixedHalf_xor_feistel (b : Block) (k : RoundKey) : mixedHalf b k ^^^ feistel (rightHalf b) k = leftHalf b := by
  rw [mixedHalf_eq, BitVec.xor_assoc, BitVec.xor_self, BitVec.xor_zero]

/-- The final round keeps the right half, so a second one mixes in the same Feistel value (R125). -/
theorem mixedHalf_finalRound (b : Block) (k : RoundKey) : mixedHalf (finalRound b k) k = leftHalf b := by
  rw [mixedHalf_eq, leftHalf_finalRound, rightHalf_finalRound, mixedHalf_xor_feistel]

@[simp] theorem finalRound_finalRound (b : Block) (k : RoundKey) : finalRound (finalRound b k) k = b := by
  rw [finalRound, mixedHalf_finalRound, rightHalf_finalRound, joinHalves_leftHalf_rightHalf]

/-- The formula R126 prints beside the inverse of `round` gives the block back with its halves exchanged (log 16). -/
theorem printedInverse_swapRound (b : Block) (k : RoundKey) :
    swapHalves (finalRound (swapHalves (swapRound b k)) k) = swapHalves b := by
  rw [swapHalves_swapRound, finalRound_finalRound]

/-- Settles O24: `roundf` undoes itself and `round` is `roundf` and a swap; the printed formula fails for a block of unequal
halves. -/
theorem roundsAreInvertible : Obligations.RoundsAreInvertible := by
  refine ⟨finalRound_finalRound, fun b k => ⟨(leftHalf_swapRound b k).symm, ?_⟩, fun b k => ⟨?_, ?_⟩,
    swapHalves_swapHalves, 0x001, 0, ?_⟩
  · rw [leftHalf_swapRound, rightHalf_swapRound, mixedHalf_xor_feistel]
  · rw [swapHalves_swapRound, finalRound_finalRound]
  · rw [← swapHalves_finalRound, finalRound_finalRound, swapHalves_swapHalves]
  · rw [printedInverse_swapRound]
    decide

/-! ### The commands (spec/41_round.md R124, R125) -/

/-- The operand `fin` is bit 24 of the word (spec/30_encoding.md R62). -/
theorem operandFin_eq_getLsbD (w : CmdWord) : operandFin w = w.getLsbD 24 := by
  simp [operandFin, fieldN]

/-- Settles O4: ROUND responds with the swapping round of the block and the key it carries. -/
theorem roundCommand : Obligations.RoundCommand := by
  refine ⟨fun block key s => ⟨_, rfl, rfl, rspST_packRsp _ _, ?_, ?_, onlyResponseChanged_respond _ _ _⟩,
    fun w hop hfin => decode_of_carries ⟨hop, (operandFin_eq_getLsbD w).trans hfin, rfl, rfl⟩, fun a k ha hk => ?_⟩
  · rw [respond_rsp, rspRES_packRsp]
    exact leftHalf_swapRound block key
  · rw [respond_rsp, rspRES_packRsp]
    exact (rightHalf_swapRound block key).trans (mixedHalf_eq block key)
  · simp [AsmLine.assemble, AsmLine.wellFormed, fitsA, fitsK, ha, hk, mkWord_ofNat, BitVec.setWidth_ofNat_of_le_of_lt]

/-- Settles O5: ROUNDF responds with the final round of the block and the key it carries, and a second ROUNDF undoes it. -/
theorem roundfCommand : Obligations.RoundfCommand := by
  refine ⟨fun block key s => ⟨_, rfl, rfl, rspST_packRsp _ _, ?_, ?_, onlyResponseChanged_respond _ _ _,
      _, rfl, rspST_packRsp _ _, ?_⟩,
    fun w hop hfin => decode_of_carries ⟨hop, (operandFin_eq_getLsbD w).trans hfin, rfl, rfl⟩, fun a k ha hk => ?_⟩
  · rw [respond_rsp, rspRES_packRsp]
    exact rightHalf_finalRound block key
  · rw [respond_rsp, rspRES_packRsp]
    exact (leftHalf_finalRound block key).trans (mixedHalf_eq block key)
  · rw [respond_rsp, rspRES_packRsp, respond_rsp, rspRES_packRsp, finalRound_finalRound]
  · simp [AsmLine.assemble, AsmLine.wellFormed, fitsA, fitsK, ha, hk, mkWord_ofNat, BitVec.setWidth_ofNat_of_le_of_lt]

/-! ### A cipher call rebuilt from single rounds (spec/41_round.md R127) -/

/-- A host reads the result of the key-list function when that answers OK (spec/10_state.md R32). -/
theorem okResult_of_refCommand {i : Instr} {s : State} {res : ResultField}
    (h : (refCommand (keysOf s) i).2 = packRsp .ok res) : okResult i s = some res := by
  obtain ⟨t, ht, -, href⟩ := exec_refinesRef i s
  have hrsp : t.rsp = packRsp .ok res := (congrArg Prod.snd href).trans h
  simp [okResult, ht, hrsp, statusCode]

theorem okResult_round (b : Block) (k : RoundKey) (s : State) : okResult (.round b k) s = some (swapRound b k) :=
  okResult_of_refCommand rfl

theorem okResult_roundf (b : Block) (k : RoundKey) (s : State) : okResult (.roundf b k) s = some (finalRound b k) :=
  okResult_of_refCommand rfl

theorem keysOf_take {n : Nat} {s : State} (h : n ≤ s.klen.val) : (keysOf s).take n = s.rk.toList.take n := by
  rw [keysOf, List.take_take, Nat.min_eq_left h]

theorem okResult_encrypt (b : Block) {n : Count} {s : State} (h : n.toNat ≤ s.klen.val) :
    okResult (.encrypt b n) s = some (cipherRounds (s.rk.toList.take n.toNat) b) := by
  apply okResult_of_refCommand
  rw [refCommand, keysOf_length, if_neg (Nat.not_lt.mpr h), encryptBlock, keysOf_take h]

theorem okResult_decrypt (b : Block) {n : Count} {s : State} (h : n.toNat ≤ s.klen.val) :
    okResult (.decrypt b n) s = some (cipherRounds (s.rk.toList.take n.toNat).reverse b) := by
  apply okResult_of_refCommand
  rw [refCommand, keysOf_length, if_neg (Nat.not_lt.mpr h), decryptBlock, keysOf_take h]

/-- Single rounds, fed one into the next, compute the rounds of the key list, whatever the key store holds. -/
theorem rebuildFromRounds_eq_cipherRounds (s : State) (keys : List RoundKey) (b : Block) :
    rebuildFromRounds s keys b = some (cipherRounds keys b) := by
  induction keys, b using cipherRounds.induct with
  | case1 b => rfl
  | case2 k b => exact okResult_roundf b k s
  | case3 k k' ks b ih =>
    rw [rebuildFromRounds, okResult_round, cipherRounds]
    exact ih

/-- Settles O31: both sides are the rounds of the keys in their order of use. -/
theorem encryptRebuiltFromSingleRounds : Obligations.EncryptRebuiltFromSingleRounds := by
  intro b n s _ hlen
  rw [okResult_encrypt b hlen, okResult_decrypt b hlen]
  exact ⟨rebuildFromRounds_eq_cipherRounds s _ b, rebuildFromRounds_eq_cipherRounds s _ b⟩

end Sys2Proof.Machine
end

section
/-! PROOFS for the family `42_key_schedule_and_store`: the round keys bit by bit (spec/42_key_schedule_and_store.md R140 to R142),
the four key-store commands (R144 to R147), that no other command writes the key store (R148), and generated keys in use (R143,
R164). -/

namespace Sys2Proof.Machine

/-! ### The round keys (spec/42_key_schedule_and_store.md R140 to R142) -/

/-- The key shifted up by seven, and below it the key without its two low bits (R140). -/
theorem rot16_eq_shift_or (mk : MasterKey) : rot16 mk = (mk.setWidth 16 <<< 7) ||| (mk.setWidth 16 >>> 2) := by
  have htop : (mk.extractLsb' 2 7).setWidth 16 = mk.setWidth 16 >>> 2 := by
    apply BitVec.eq_of_toNat_eq
    have := mk.isLt
    simp only [BitVec.toNat_setWidth, BitVec.extractLsb'_toNat, BitVec.toNat_ushiftRight, Nat.shiftRight_eq_div_pow]
    omega
  rw [← htop]
  exact (BitVec.setWidth_eq _).symm.trans BitVec.setWidth_append_eq_shiftLeft_setWidth_or

/-- The rotated field is the key read cyclically, from key bit 2 on (R140). -/
theorem rot16_getLsbD (mk : MasterKey) {j : Nat} (hj : j < 16) : (rot16 mk).getLsbD j = mk.getLsbD ((j + 2) % 9) := by
  rw [rot16, BitVec.getLsbD_append, BitVec.getLsbD_extractLsb']
  by_cases hlow : j < 7
  · rw [if_pos hlow, decide_eq_true hlow, Bool.true_and, Nat.mod_eq_of_lt (by omega), Nat.add_comm]
  · rw [if_neg hlow, show (j + 2) % 9 = j - 7 by omega]

/-- A round key is a window of eight bits of the rotated field (R141). -/
theorem roundKey_getLsbD (mk : MasterKey) (i : Nat) {j : Nat} (hj : j < 8) :
    (roundKey mk i).getLsbD j = (rot16 mk).getLsbD (8 - i + j) := by
  rw [roundKey, BitVec.getLsbD_setWidth, decide_eq_true hj, Bool.true_and, BitVec.getLsbD_ushiftRight]

/-- Settles O25: the field as a shift and an or, as a table of key bits, and as what the windows are taken from. -/
theorem roundKeyIsWindowOfRotatedKey : Obligations.RoundKeyIsWindowOfRotatedKey := by
  refine ⟨rot16_eq_shift_or, fun mk j hj => ?_, fun mk i j _ hj => roundKey_getLsbD mk i hj⟩
  have htable : (j + 2) % 9 = ([2, 3, 4, 5, 6, 7, 8, 0, 1, 2, 3, 4, 5, 6, 7, 8] : List Nat).getD j 0 := by
    decide +revert
  rw [rot16_getLsbD mk hj, htable]

/-- Round key bit `j` is key bit `(1 - i + j) mod 9` (R142), written without a negative number. -/
theorem roundKey_getLsbD_eq_key (mk : MasterKey) {i j : Nat} (hi : i ≤ 8) (hj : j < 8) :
    (roundKey mk i).getLsbD j = mk.getLsbD ((10 + j - i) % 9) := by
  rw [roundKey_getLsbD mk i hj, rot16_getLsbD mk (by omega), show 8 - i + j + 2 = 10 + j - i by omega]

/-- Settles O26: the eight bits taken are those one to eight places after the bit left out, so none of them is that bit. -/
theorem roundKeyBitsAreCyclic : Obligations.RoundKeyBitsAreCyclic := by
  refine ⟨fun mk i j hi hj => roundKey_getLsbD_eq_key mk hi hj, fun mk mk' i hi hsame => ?_⟩
  apply BitVec.eq_of_getLsbD_eq
  intro j hj
  rw [roundKey_getLsbD_eq_key mk hi hj, roundKey_getLsbD_eq_key mk' hi hj]
  exact hsame _ (Nat.mod_lt _ (by decide)) (by omega)

/-! ### The key store's entries (spec/20_memory.md R41, spec/42_key_schedule_and_store.md R144) -/

theorem keyWrite_getElem? {i : Nat} (hi : i < 9) (j : Nat) (v : RoundKey) (s : State) :
    (keyWrite i v s).rk[j]? = if i = j then some v else s.rk[j]? := by
  by_cases h : i = j
  · subst h
    simp [hi]
  · simp [h]

/-- KEYGEN's loop writes the round keys to the first entries and keeps the others (R144). -/
theorem writeSchedule_getElem? (mk : MasterKey) (s : State) {n : Nat} (hn : n ≤ 9) (j : Nat) :
    (writeSchedule mk n s).rk[j]? = if j < n then some (roundKey mk j) else s.rk[j]? := by
  induction n with
  | zero => rfl
  | succ n ih =>
    rw [writeSchedule, keyWrite_getElem? (by omega), ih (by omega)]
    by_cases h : n = j
    · subst h
      simp
    · simp only [if_neg h, show j < n + 1 ↔ j < n by omega]

/-- Writing RK only, then setting KLEN and responding, changes the key store and the response and nothing else. -/
theorem onlyKeysAndResponseChanged_respond_setKlen (st : Status) (res : ResultField) (n : Fin 10) {s t : State}
    (h : t = { s with rk := t.rk }) : onlyKeysAndResponseChanged s (respond st res (setKlen n t)) :=
  congrArg (fun u => respond st res (setKlen n u)) h

/-! ### The commands (spec/42_key_schedule_and_store.md R144 to R147) -/

theorem exec_keygen_of_lt (mkey : MasterKey) (n : Count) (s : State) (h : n.toNat < 10) :
    exec (.keygen mkey n) s =
      .next (respond .ok (n.setWidth 12) (setKlen ⟨n.toNat, h⟩ (writeSchedule mkey n.toNat s))) := dif_pos h

/-- Settles O6: the schedule fills the first `n` entries and sets KLEN; a count above 9 only empties the store. -/
theorem keygenCommand : Obligations.KeygenCommand := by
  refine ⟨fun mkey n s hn => ?_, fun mkey n s hn => ?_, fun w hop => decode_of_carries ⟨hop, rfl, rfl⟩, fun a n ha hn => ?_⟩
  · refine ⟨_, exec_keygen_of_lt mkey n s (Nat.lt_succ_of_le hn), rfl, rspST_packRsp _ _, ?_, rfl, fun i hi => ?_,
      fun i hi => ?_, onlyKeysAndResponseChanged_respond_setKlen _ _ _ (writeSchedule_frame mkey n.toNat s)⟩
    · rw [respond_rsp, rspRES_packRsp, BitVec.toNat_setWidth_of_le (by decide)]
    · exact (writeSchedule_getElem? mkey s hn i).trans (if_pos hi)
    · exact (writeSchedule_getElem? mkey s hn i).trans (if_neg (Nat.not_lt.mpr hi))
  · exact dif_neg (Nat.not_lt.mpr hn)
  · simp [AsmLine.assemble, AsmLine.wellFormed, fitsA, fitsN, ha, hn, mkWord_ofNat, BitVec.setWidth_ofNat_of_le_of_lt]

/-- Settles O7: KCLR writes KLEN and its response, by its definition. -/
theorem kclrCommand : Obligations.KclrCommand := ⟨fun _ => rfl, fun _ hop => decode_of_carries hop, rfl⟩

theorem exec_kpush_of_lt (key : RoundKey) (s : State) (h : s.klen.val + 1 < 10) :
    exec (.kpush key) s =
      .next (respond .ok (.ofNat 12 (s.klen.val + 1)) (setKlen ⟨s.klen.val + 1, h⟩ (keyWrite s.klen.val key s))) := dif_pos h

/-- Settles O8: a push writes the entry at KLEN and raises KLEN; on a full store it only answers. -/
theorem kpushCommand : Obligations.KpushCommand := by
  refine ⟨fun key s hlt => ?_, fun key s hfull => ?_, fun w hop => decode_of_carries ⟨hop, rfl⟩, fun k hk => ?_⟩
  · have hwrite (i : Nat) := keyWrite_getElem? hlt i key s
    refine ⟨_, exec_kpush_of_lt key s (Nat.succ_lt_succ hlt), rfl, rspST_packRsp _ _, ?_, rfl, ?_, fun i hi => ?_,
      onlyKeysAndResponseChanged_respond_setKlen _ _ _ rfl⟩
    · rw [respond_rsp, rspRES_packRsp, BitVec.toNat_ofNat]
      omega
    · exact (hwrite _).trans (if_pos rfl)
    · exact (hwrite i).trans (if_neg hi.symm)
  · exact dif_neg (by omega)
  · simp [AsmLine.assemble, AsmLine.wellFormed, fitsK, hk, commandWordLayout.1, BitVec.setWidth_ofNat_of_le_of_lt]

theorem exec_kread_of_ge {idx : Count} {s : State} (h : s.klen.val ≤ idx.toNat) :
    exec (.kread idx) s = .next { s with rsp := 0x2000, rspValid := true } := by
  simp only [exec, execKread, keyRead_of_ge h]
  rfl

/-- Settles O9: a guarded read answers the entry below KLEN, and none at or beyond it. -/
theorem kreadCommand : Obligations.KreadCommand := by
  refine ⟨fun idx s hlt => ?_, fun idx s => exec_kread_of_ge, fun idx s h9 => exec_kread_of_ge ?_,
    fun w hop => decode_of_carries ⟨hop, rfl⟩, fun n hn => ?_⟩
  · have h9 : idx.toNat < 9 := by have := s.klen.isLt; omega
    simp only [exec, execKread, keyRead_of_lt hlt]
    refine ⟨_, rfl, rfl, rspST_packRsp _ _, ?_, ?_, onlyResponseChanged_respond _ _ _⟩
    · rw [respond_rsp, rspRES_packRsp, BitVec.setWidth_setWidth_of_le _ (by decide), BitVec.setWidth_eq,
        Vector.getElem?_eq_getElem h9]
    · rw [respond_rsp, rspRES_packRsp, BitVec.toNat_setWidth_of_le (by decide)]
      exact BitVec.isLt _
  · exact (Nat.le_of_lt_succ s.klen.isLt).trans h9
  · simp [AsmLine.assemble, AsmLine.wellFormed, fitsN, hn, commandWordLayout.1, BitVec.setWidth_ofNat_of_le_of_lt]

/-! ### Who writes the key store (spec/42_key_schedule_and_store.md R148) -/

theorem runDriver_keeps_keyStore (d : Direction) (block : Block) (n : Count) (s : State) :
    (runDriver d block n s).rk = s.rk ∧ (runDriver d block n s).klen = s.klen := by
  rw [runDriver_eq]
  split <;> exact ⟨rfl, rfl⟩

/-- A command keeps RK and KLEN, answering OK or an error, or is one of the three (R148). -/
theorem exec_keeps_keyStore_or_keyCommand {i : Instr} {s t : State} (h : exec i s = .next t) :
    (t.rk = s.rk ∧ t.klen = s.klen) ∨ i.mnemonic ∈ ["KEYGEN", "KCLR", "KPUSH"] := by
  cases i with
  | keygen | kclr | kpush => exact .inr (by simp [Instr.mnemonic])
  | encrypt block n => cases h; exact .inl (runDriver_keeps_keyStore .encrypt block n s)
  | decrypt block n => cases h; exact .inl (runDriver_keeps_keyStore .decrypt block n s)
  | kread idx =>
    simp only [exec, execKread] at h
    split at h <;> cases h <;> exact .inl ⟨rfl, rfl⟩
  | expand | confuse | feistel | round | roundf => cases h; exact .inl ⟨rfl, rfl⟩

/-- A reserved word keeps the key store as well (R148). -/
theorem runWord_keeps_keyStore_or_keyCommand {w : CmdWord} {s t : State} (h : runWord w s = .next t) :
    (t.rk = s.rk ∧ t.klen = s.klen) ∨ ∃ i, decode w = .ok i ∧ i.mnemonic ∈ ["KEYGEN", "KCLR", "KPUSH"] := by
  unfold runWord at h
  split at h
  case h_1 i hdec => exact (exec_keeps_keyStore_or_keyCommand h).imp_right fun hkey => ⟨i, hdec, hkey⟩
  case h_2 => cases h; exact .inl ⟨rfl, rfl⟩

/-- Settles O46: without reset a step takes the response, waits or runs a word, and only the last can write the key store. -/
theorem keyStoreWrittenOnlyByKeyCommands : Obligations.KeyStoreWrittenOnlyByKeyCommands := by
  intro s t p rest hhost hrst hstep
  obtain ⟨hnil, -⟩ | ⟨p', rest', hhost', hcases⟩ := step_cases hstep
  · cases hhost.symm.trans hnil
  · obtain ⟨rfl, rfl⟩ := List.cons.inj (hhost.symm.trans hhost')
    obtain ⟨hev, -⟩ | ⟨-, rfl⟩ | ⟨-, rfl⟩ | ⟨w, hev, hrun⟩ := hcases
    · cases hrst.symm.trans (portEvent_eq_reset_iff.mp hev)
    · exact .inl ⟨rfl, rfl⟩
    · exact .inl ⟨rfl, rfl⟩
    · exact (runWord_keeps_keyStore_or_keyCommand hrun).imp_right fun ⟨i, hdec, hkey⟩ => ⟨w, i, hev, hdec, hkey⟩

/-! ### Generated keys extended by hand (spec/42_key_schedule_and_store.md R143, R146) -/

theorem scheduleKeys_length (mk : MasterKey) (n : Nat) : (scheduleKeys mk n).length = n := by
  simp [scheduleKeys]

theorem scheduleKeys_succ (mk : MasterKey) (n : Nat) : scheduleKeys mk (n + 1) = scheduleKeys mk n ++ [roundKey mk n] := by
  simp [scheduleKeys, List.range_succ]

/-- A KEYGEN in range leaves the schedule as the key list (R143). -/
theorem exec_keygen_keysOf (mk : MasterKey) {n : Count} (hn : n.toNat ≤ 9) (s : State) :
    ∃ t, exec (.keygen mk n) s = .next t ∧ keysOf t = scheduleKeys mk n.toNat := by
  obtain ⟨t, ht, -, href⟩ := exec_refinesRef (.keygen mk n) s
  rw [refCommand, if_neg (Nat.not_lt.mpr hn)] at href
  exact ⟨t, ht, congrArg Prod.fst href⟩

/-- A KPUSH on a store that is not full appends its key to the key list (R146). -/
theorem exec_kpush_keysOf (key : RoundKey) {s : State} (hlen : (keysOf s).length < 9) :
    ∃ t, exec (.kpush key) s = .next t ∧ keysOf t = keysOf s ++ [key] := by
  obtain ⟨t, ht, -, href⟩ := exec_refinesRef (.kpush key) s
  rw [refCommand, if_neg hlen.ne] at href
  exact ⟨t, ht, congrArg Prod.fst href⟩

/-- Settles O33: both ways the key list is the schedule of `n + 1` keys, whose last is round key `n`. -/
theorem pushingTheNextRoundKeyExtendsTheSchedule : Obligations.PushingTheNextRoundKeyExtendsTheSchedule := by
  intro mk n s hn
  have hnext : (n + 1).toNat = n.toNat + 1 := by bv_omega
  obtain ⟨t, ht, htkeys⟩ := exec_keygen_keysOf mk (n := n) hn.le s
  obtain ⟨u, hu, hukeys⟩ := exec_kpush_keysOf (roundKey mk n.toNat) (s := t) (by rwa [htkeys, scheduleKeys_length])
  obtain ⟨v, hv, hvkeys⟩ := exec_keygen_keysOf mk (n := n + 1) (hnext.trans_le hn) s
  rw [hnext] at hvkeys
  exact ⟨t, u, v, ht, hu, hv, by rw [hukeys, htkeys, hvkeys, scheduleKeys_succ], hvkeys⟩

/-! ### Decrypting undoes encrypting (spec/43_cipher_driver.md R164) -/

/-- One more key appends a swap and a final round: the round that was last before is then a swapping one (R161). -/
theorem cipherRounds_concat (k : RoundKey) {keys : List RoundKey} (hne : keys ≠ []) (b : Block) :
    cipherRounds (keys ++ [k]) b = finalRound (swapHalves (cipherRounds keys b)) k := by
  induction keys, b using cipherRounds.induct with
  | case1 b => exact absurd rfl hne
  | case2 k₀ b => simp [cipherRounds]
  | case3 k₀ k₁ ks b ih =>
    rw [cipherRounds, ← ih (List.cons_ne_nil _ _)]
    rfl

/-- The rounds with the keys reversed undo the rounds: the reversed call ends with the round that the first call began with. -/
theorem cipherRounds_reverse_cancel (keys : List RoundKey) (b : Block) :
    cipherRounds keys.reverse (cipherRounds keys b) = b := by
  induction keys, b using cipherRounds.induct with
  | case1 b => rfl
  | case2 k b => exact finalRound_finalRound b k
  | case3 k k' ks b ih =>
    rw [cipherRounds, List.reverse_cons, cipherRounds_concat k (by simp), ih, swapHalves_swapRound, finalRound_finalRound]

theorem decryptBlock_encryptBlock (keys : List RoundKey) (n : Nat) (b : Block) :
    decryptBlock keys n (encryptBlock keys n b) = b := cipherRounds_reverse_cancel (keys.take n) b

/-- An ENCRYPT with enough keys answers with the encrypted block and keeps the key list (R161). -/
theorem exec_encrypt_of_le (b : Block) {n : Count} {s : State} (h : n.toNat ≤ (keysOf s).length) :
    ∃ t, exec (.encrypt b n) s = .next t ∧ keysOf t = keysOf s ∧
      t.rsp = packRsp .ok (encryptBlock (keysOf s) n.toNat b) := by
  obtain ⟨t, ht, -, href⟩ := exec_refinesRef (.encrypt b n) s
  rw [refCommand, if_neg (Nat.not_lt.mpr h)] at href
  exact ⟨t, ht, Prod.mk.inj href⟩

/-- A DECRYPT with enough keys answers with the decrypted block and keeps the key list (R162). -/
theorem exec_decrypt_of_le (b : Block) {n : Count} {s : State} (h : n.toNat ≤ (keysOf s).length) :
    ∃ t, exec (.decrypt b n) s = .next t ∧ keysOf t = keysOf s ∧
      t.rsp = packRsp .ok (decryptBlock (keysOf s) n.toNat b) := by
  obtain ⟨t, ht, -, href⟩ := exec_refinesRef (.decrypt b n) s
  rw [refCommand, if_neg (Nat.not_lt.mpr h)] at href
  exact ⟨t, ht, Prod.mk.inj href⟩

/-- Settles O34: both cipher commands use the generated key list, which ENCRYPT keeps, and the one undoes the other. -/
theorem generatedKeysRoundTrip : Obligations.GeneratedKeysRoundTrip := by
  intro mk m n b s hnm hm
  obtain ⟨t, ht, htkeys⟩ := exec_keygen_keysOf mk hm s
  have hlen : n.toNat ≤ (keysOf t).length := by rwa [htkeys, scheduleKeys_length]
  obtain ⟨u, hu, hukeys, hursp⟩ := exec_encrypt_of_le b hlen
  obtain ⟨v, hv, -, hvrsp⟩ := exec_decrypt_of_le (rspRES u.rsp) (n := n) (s := u) (by rwa [hukeys])
  refine ⟨t, u, v, ht, hu, ?_, hv, ?_⟩
  · rw [hursp, rspRES_packRsp, htkeys]
  · rw [hvrsp, rspRES_packRsp, hukeys, hursp, rspRES_packRsp, decryptBlock_encryptBlock]

end Sys2Proof.Machine
end

section
/-! PROOFS for the family `43_cipher_driver`: a cipher call in closed form (spec/43_cipher_driver.md R167), what a run of the driver
answers and changes (R160 to R163), the commands ENCRYPT and DECRYPT, and that each undoes the other (R164). -/

namespace Sys2Proof.Machine

/-! ### A cipher call in closed form (spec/43_cipher_driver.md R167) -/

/-- Settles O27, by induction on the keys: the swap in a swapping round is the swap between that round and the next. -/
theorem cipherRoundsClosedForm : Obligations.CipherRoundsClosedForm := by
  intro k ks b
  induction ks generalizing k b with
  | nil => rfl
  | cons k' ks ih => rw [cipherRounds, ih, List.foldl_cons, swapHalves_finalRound]

/-! ### The keys of a call in their order of use (spec/43_cipher_driver.md R161, R162) -/

@[simp] theorem cipherKeys_zero (d : Direction) (keys : List RoundKey) : cipherKeys d 0 keys = [] := by
  cases d <;> rfl

/-- The other direction uses the same keys in reverse order (R162). -/
theorem cipherKeys_of_ne {d d' : Direction} (hne : d ≠ d') (n : Nat) (keys : List RoundKey) :
    cipherKeys d' n keys = (cipherKeys d n keys).reverse := by
  cases d <;> cases d'
  case encrypt.decrypt => rfl
  case decrypt.encrypt => exact (List.reverse_reverse _).symm
  all_goals exact absurd rfl hne

/-- Up to KLEN the keys of a call are entries of RK (spec/10_state.md R21). -/
theorem cipherKeys_keysOf (d : Direction) {n : Nat} {s : State} (h : n ≤ s.klen.val) :
    cipherKeys d n (keysOf s) = cipherKeys d n s.rk.toList := by
  cases d <;> simp only [cipherKeys, keysOf_take h]

/-! ### A run of the driver, in either direction (spec/43_cipher_driver.md R160 to R163) -/

theorem onlyDriverAndResponseChanged_runDriver (d : Direction) (block : Block) (n : Count) (s : State) :
    onlyDriverAndResponseChanged s (runDriver d block n s) := by
  rw [runDriver_eq]
  split <;> rfl

/-- With enough keys a run answers OK, with the block after the rounds (R161, R162). -/
theorem runDriver_ok (d : Direction) (block : Block) {n : Count} {s : State} (h : n.toNat ≤ s.klen.val) :
    rspST (runDriver d block n s).rsp = 0 ∧
      rspRES (runDriver d block n s).rsp = cipherRounds (cipherKeys d n.toNat s.rk.toList) block := by
  rw [runDriver_eq, keysOf_length, if_neg (Nat.not_lt.mpr h), cipherKeys_keysOf d h, releaseDriver_rsp, respond_rsp]
  exact ⟨rspST_packRsp _ _, rspRES_packRsp _ _⟩

/-- With enough keys all that changes is the response, OK and valid, and the working registers (R161, R162). -/
theorem runDriver_of_le (d : Direction) (block : Block) {n : Count} {s : State} (h : n.toNat ≤ s.klen.val) :
    (runDriver d block n s).rspValid = true ∧ rspST (runDriver d block n s).rsp = 0 ∧
      rspRES (runDriver d block n s).rsp = cipherRounds (cipherKeys d n.toNat s.rk.toList) block ∧
      onlyDriverAndResponseChanged s (runDriver d block n s) := by
  obtain ⟨hst, hres⟩ := runDriver_ok d block h
  exact ⟨(runDriver_keysOf_rsp d block n s).1, hst, hres, onlyDriverAndResponseChanged_runDriver d block n s⟩

/-- With too few keys all that changes is the response, InsufficientKeys and valid, and the working registers (R160). -/
theorem runDriver_of_lt (d : Direction) (block : Block) {n : Count} {s : State} (h : s.klen.val < n.toNat) :
    (runDriver d block n s).rspValid = true ∧ (runDriver d block n s).rsp = 0x2000 ∧
      onlyDriverAndResponseChanged s (runDriver d block n s) := by
  refine ⟨(runDriver_keysOf_rsp d block n s).1, ?_, onlyDriverAndResponseChanged_runDriver d block n s⟩
  rw [runDriver_eq, keysOf_length, if_pos h]
  rfl

/-- A run of no rounds needs no key, and answers with its block (R163). -/
theorem runDriver_zero (d : Direction) (block : Block) (s : State) :
    rspST (runDriver d block 0 s).rsp = 0 ∧ rspRES (runDriver d block 0 s).rsp = block := by
  have hrun := runDriver_ok d block (n := 0) (s := s) (Nat.zero_le _)
  rwa [show (0 : Count).toNat = 0 from rfl, cipherKeys_zero, cipherRounds] at hrun

/-- A run keeps the key store, so a second one in the other direction uses the same keys reversed and gives the block back
(R164). -/
theorem runDriver_undoes {d d' : Direction} (hne : d ≠ d') (b : Block) {n : Count} {s : State} (h : n.toNat ≤ s.klen.val) :
    rspST (runDriver d' (rspRES (runDriver d b n s).rsp) n (runDriver d b n s)).rsp = 0 ∧
      rspRES (runDriver d' (rspRES (runDriver d b n s).rsp) n (runDriver d b n s)).rsp = b := by
  obtain ⟨hrk, hklen⟩ := runDriver_keeps_keyStore d b n s
  obtain ⟨hst, hres⟩ := runDriver_ok d' (rspRES (runDriver d b n s).rsp) (h.trans_eq (congrArg Fin.val hklen.symm))
  refine ⟨hst, hres.trans ?_⟩
  rw [hrk, (runDriver_ok d b h).2, cipherKeys_of_ne hne, cipherRounds_reverse_cancel]

/-! ### The commands (spec/43_cipher_driver.md R160 to R164) -/

/-- Settles O10: ENCRYPT is a run of the driver with the keys in order. -/
theorem encryptCommand : Obligations.EncryptCommand := by
  refine ⟨fun block _ _ h => ⟨_, rfl, runDriver_of_le .encrypt block h⟩,
    fun block _ _ h => ⟨_, rfl, runDriver_of_lt .encrypt block h⟩,
    fun w hop => decode_of_carries ⟨hop, rfl, rfl⟩, fun a n ha hn => ?_⟩
  simp [AsmLine.assemble, AsmLine.wellFormed, fitsA, fitsN, ha, hn, mkWord_ofNat, BitVec.setWidth_ofNat_of_le_of_lt]

/-- Settles O11: DECRYPT is a run of the driver with the keys reversed. -/
theorem decryptCommand : Obligations.DecryptCommand := by
  refine ⟨fun block _ _ h => ⟨_, rfl, runDriver_of_le .decrypt block h⟩,
    fun block _ _ h => ⟨_, rfl, runDriver_of_lt .decrypt block h⟩,
    fun w hop => decode_of_carries ⟨hop, rfl, rfl⟩, fun a n ha hn => ?_⟩
  simp [AsmLine.assemble, AsmLine.wellFormed, fitsA, fitsN, ha, hn, mkWord_ofNat, BitVec.setWidth_ofNat_of_le_of_lt]

/-- Settles O28: the two commands are runs in opposite directions. -/
theorem encryptAndDecryptAreInverse : Obligations.EncryptAndDecryptAreInverse := fun b _ _ h =>
  ⟨⟨_, _, rfl, (runDriver_ok .encrypt b h).1, rfl, runDriver_undoes (d' := .decrypt) Direction.noConfusion b h⟩,
    _, _, rfl, (runDriver_ok .decrypt b h).1, rfl, runDriver_undoes (d' := .encrypt) Direction.noConfusion b h⟩

/-- Settles O29: a run of no rounds answers with its block in either direction. -/
theorem zeroRoundsReturnTheBlock : Obligations.ZeroRoundsReturnTheBlock := fun b s =>
  ⟨⟨_, rfl, runDriver_zero .encrypt b s⟩, _, rfl, runDriver_zero .decrypt b s⟩

end Sys2Proof.Machine
end

section
/-! PROOFS for the family `60_exceptions`: which command can raise which error and what an error leaves of the key store
(spec/60_exceptions.md R180 to R185), the answer to a reserved word (R183), and the empty store after a failed KEYGEN (R191). -/

namespace Sys2Proof.Machine

/-! ### What a failed command answers and leaves behind (spec/60_exceptions.md R184, R185, R187) -/

/-- The one error a command can raise, if any: the list of (command, error) pairs of R184. -/
def commandError : Instr → Option Status
  | .keygen _ _ | .kpush _ => some .invalidRoundCount
  | .encrypt _ _ | .decrypt _ _ | .kread _ => some .insufficientKeys
  | .expand _ | .confuse _ | .feistel _ _ | .round _ _ | .roundf _ _ | .kclr => none

/-- KLEN after the command failed: a failed KEYGEN sets it to 0, the single exception of R185. -/
def klenAfterError (klen : Fin 10) : Instr → Fin 10
  | .keygen _ _ => 0
  | _ => klen

/-- From `s` the command `i` failed in `t`: the response is its error with RES = 0, and of the key store at most KLEN differs,
as `klenAfterError` says. -/
def FailedTo (i : Instr) (s t : State) : Prop :=
  ∃ e, commandError i = some e ∧ t.rsp = packRsp e 0 ∧ t.rk = s.rk ∧ t.klen = klenAfterError s.klen i

/-- The driver's single check: its count against KLEN (R182). -/
theorem runDriver_ok_or_insufficientKeys (d : Direction) (block : Block) (n : Count) (s : State) :
    rspST (runDriver d block n s).rsp = 0 ∨ (runDriver d block n s).rsp = packRsp .insufficientKeys 0 := by
  obtain hle | hlt := le_or_gt n.toNat s.klen.val
  · exact .inl (runDriver_ok d block hle).1
  · obtain ⟨-, hrsp, -⟩ := runDriver_of_lt d block hlt
    exact .inr hrsp

/-- Every command completes, and it answers OK or fails with its one error: each command's single check decides (R184, R187). -/
theorem exec_ok_or_failed (i : Instr) (s : State) : ∃ t, exec i s = .next t ∧ (rspST t.rsp = 0 ∨ FailedTo i s t) := by
  cases i with
  | keygen mkey n =>
    obtain ⟨hok, hfail, -⟩ := keygenCommand
    obtain hle | hlt := le_or_gt n.toNat 9
    · obtain ⟨t, ht, -, hst, -⟩ := hok mkey n s hle
      exact ⟨t, ht, .inl hst⟩
    · exact ⟨_, hfail mkey n s hlt, .inr ⟨_, rfl, rfl, rfl, rfl⟩⟩
  | kpush key =>
    obtain ⟨hok, hfail, -⟩ := kpushCommand
    obtain hlt | hfull := Nat.lt_or_eq_of_le (Nat.le_of_lt_succ s.klen.isLt)
    · obtain ⟨t, ht, -, hst, -⟩ := hok key s hlt
      exact ⟨t, ht, .inl hst⟩
    · exact ⟨_, hfail key s hfull, .inr ⟨_, rfl, rfl, rfl, rfl⟩⟩
  | kread idx =>
    obtain ⟨hok, hfail, -⟩ := kreadCommand
    obtain hlt | hle := Nat.lt_or_ge idx.toNat s.klen.val
    · obtain ⟨t, ht, -, hst, -⟩ := hok idx s hlt
      exact ⟨t, ht, .inl hst⟩
    · exact ⟨_, hfail idx s hle, .inr ⟨_, rfl, rfl, rfl, rfl⟩⟩
  | encrypt block n =>
    exact ⟨_, rfl, (runDriver_ok_or_insufficientKeys .encrypt block n s).imp_right fun hrsp =>
      ⟨_, rfl, hrsp, runDriver_keeps_keyStore .encrypt block n s⟩⟩
  | decrypt block n =>
    exact ⟨_, rfl, (runDriver_ok_or_insufficientKeys .decrypt block n s).imp_right fun hrsp =>
      ⟨_, rfl, hrsp, runDriver_keeps_keyStore .decrypt block n s⟩⟩
  | expand | confuse | feistel | round | roundf | kclr => exact ⟨_, rfl, .inl (rspST_packRsp _ _)⟩

/-- The status of a failed command is the code of its error (R180). -/
theorem FailedTo.rspST_eq {i : Instr} {s t : State} {e : Status} (h : FailedTo i s t) (he : commandError i = some e) :
    rspST t.rsp = statusCode e := by
  obtain ⟨e', he', hrsp, -, -⟩ := h
  obtain rfl : e = e' := Option.some.inj (he.symm.trans he')
  rw [hrsp, rspST_packRsp]

/-- Settles O35: a command answers OK or its one error, if it has one, and a reserved word answers IllegalCommand. -/
theorem commandsRaiseOnlyTheirErrors : Obligations.CommandsRaiseOnlyTheirErrors := by
  intro w s
  unfold runWord
  cases decode w with
  | error e => exact ⟨_, rfl, rspST_packRsp _ _⟩
  | ok i =>
    obtain ⟨t, ht, hcases⟩ := exec_ok_or_failed i s
    refine ⟨t, ht, ?_⟩
    cases i with
    | keygen | kpush | encrypt | decrypt | kread => exact hcases.imp_right fun hfailed => hfailed.rspST_eq rfl
    | expand | confuse | feistel | round | roundf | kclr =>
      obtain hok | ⟨e, he, -⟩ := hcases
      · exact hok
      · cases he

/-- Settles O36: a status other than OK is a reserved word's, which only answers, or that of a failed command. -/
theorem errorsHaveNoPartialEffect : Obligations.ErrorsHaveNoPartialEffect := by
  intro w s t
  unfold runWord
  cases decode w with
  | error e =>
    intro hrun _
    cases hrun
    exact ⟨rspRES_packRsp _ _, rfl, rfl⟩
  | ok i =>
    intro hrun hst
    obtain ⟨t', ht', hcases⟩ := exec_ok_or_failed i s
    obtain rfl : t = t' := Host.Outcome.next.inj (hrun.symm.trans ht')
    obtain ⟨e, -, hrsp, hrk, hklen⟩ := hcases.resolve_left hst
    refine ⟨by rw [hrsp, rspRES_packRsp], hrk, ?_⟩
    cases i <;> exact hklen

/-! ### A reserved word (spec/60_exceptions.md R183) -/

theorem runWord_of_reserved {w : CmdWord} (h : reservedOpcode (fieldOP w) = true) (s : State) :
    runWord w s = .next (illegalCommand s) := by
  simp only [runWord, decode_eq_error_iff.mpr h]

/-- In an idle core no word was presented before, so acceptance only consumes the sample and sets BUSY. -/
theorem acceptedState_of_idle {s : State} (hidle : s.idle) (rest : List HostPins) :
    acceptedState rest s = { s with host := rest, busy := true } := by
  obtain ⟨-, -, hheld⟩ := hidle
  simp [acceptedState, accept, hheld]

/-- Settles O37: the idle core accepts the word (one step, log 2; BUSY set, log 7), which decodes to no command, and IllegalCommand
with RES = 0 is 0x3000. -/
theorem reservedWordAnswersIllegalCommand : Obligations.ReservedWordAnswersIllegalCommand := by
  intro s p rest hhost hidle hrst hcmd hop
  rw [step_of_idle hhost hidle hrst hcmd, runWord_of_reserved (decide_eq_true hop), acceptedState_of_idle hidle]
  rfl

/-! ### The empty key store after a failed KEYGEN (spec/60_exceptions.md R191) -/

/-- With no key every run of at least one round answers InsufficientKeys, in either direction (R182). -/
theorem runDriver_rsp_of_empty (d : Direction) (block : Block) {n : Count} {s : State} (hempty : s.klen = 0)
    (hn : 1 ≤ n.toNat) : (runDriver d block n s).rsp = 0x2000 := by
  obtain ⟨-, hrsp, -⟩ := runDriver_of_lt d block (s := s) (n := n) (by rwa [hempty])
  exact hrsp

/-- Settles O32: the failed KEYGEN leaves KLEN = 0, and below 0 there is neither a round count of at least 1 nor an index. -/
theorem failedKeygenDiscardsKeys : Obligations.FailedKeygenDiscardsKeys := by
  intro mk m s hm
  obtain ⟨-, hfail, -⟩ := keygenCommand
  exact ⟨_, hfail mk m s hm,
    fun b _ hn => ⟨⟨_, rfl, runDriver_rsp_of_empty .encrypt b rfl hn⟩, _, rfl, runDriver_rsp_of_empty .decrypt b rfl hn⟩,
    fun idx => ⟨_, exec_kread_of_ge (Nat.zero_le _), rfl⟩⟩

end Sys2Proof.Machine
end

section
/-! SUPPORT and PROOFS for the family `70_reset_and_hazards`: the effect of reset (spec/70_reset_and_hazards.md R200 to R202), a
KPUSH between two cipher commands (R207), where a step refuses, and that a host that keeps the handshake is never refused (R211;
spec/93_implementation_defined.md U8). -/

namespace Sys2Proof.Machine

/-! ### The steps that run no word (spec/30_encoding.md R69; spec/70_reset_and_hazards.md R200, R211) -/

theorem step_of_reset {s : State} {p : HostPins} {rest : List HostPins} (hhost : s.host = p :: rest) (hrst : p.rst = true) :
    step s = .next (hold p.presented (resetCore { s with host := rest })) := by
  simp only [step, hhost, portStep, portEvent_eq_reset_iff.mpr hrst]

theorem step_of_take {s : State} {p : HostPins} {rest : List HostPins} (hhost : s.host = p :: rest)
    (hev : portEvent p s = .take) : step s = .next (hold p.presented (takeResponse { s with host := rest })) := by
  simp only [step, hhost, portStep, hev]

theorem step_of_wait {s : State} {p : HostPins} {rest : List HostPins} (hhost : s.host = p :: rest)
    (hev : portEvent p s = .wait) : step s = .next (hold p.presented { s with host := rest }) := by
  simp only [step, hhost, portStep, hev]

/-! ### Reset (spec/70_reset_and_hazards.md R201, R202) -/

/-- Settles O42: the step leaves the reset state, whose fields are those of R30. -/
theorem resetFromAnyState : Obligations.ResetFromAnyState := fun _ _ _ hhost hrst =>
  ⟨_, step_of_reset hhost hrst, rfl, rfl, rfl, rfl, rfl, rfl, rfl⟩

/-- Settles O43: both outputs are gated by `rst`, and reset comes first among the events of a sample. -/
theorem nothingOnThePortsDuringReset : Obligations.NothingOnThePortsDuringReset := fun _ =>
  ⟨rfl, rfl, fun _ hrst => portEvent_eq_reset_iff.mpr hrst⟩

/-! ### A KPUSH between ENCRYPT and DECRYPT (spec/70_reset_and_hazards.md R207) -/

/-- A KPUSH, successful or not, keeps the keys in the store and their order (R146). -/
theorem exec_kpush_keeps_prefix (key : RoundKey) (s : State) :
    ∃ t, exec (.kpush key) s = .next t ∧ keysOf s <+: keysOf t := by
  obtain ⟨t, ht, -, href⟩ := exec_refinesRef (.kpush key) s
  have hkeys : keysOf t = (refCommand (keysOf s) (.kpush key)).1 := congrArg Prod.fst href
  refine ⟨t, ht, ?_⟩
  rw [hkeys, refCommand]
  split
  · exact List.prefix_rfl
  · exact List.prefix_append _ _

/-- Decrypting with a longer key list undoes encrypting: both use the first `n` keys, which the lists share (R161, R162). -/
theorem decryptBlock_encryptBlock_of_prefix {keys keys' : List RoundKey} (hpre : keys <+: keys') {n : Nat}
    (hn : n ≤ keys.length) (b : Block) : decryptBlock keys' n (encryptBlock keys n b) = b := by
  obtain ⟨pushed, rfl⟩ := hpre
  have hsame : decryptBlock (keys ++ pushed) n = decryptBlock keys n := by
    funext c
    rw [decryptBlock, decryptBlock, List.take_append_of_le_length hn]
  rw [hsame, decryptBlock_encryptBlock]

/-- Settles O30: the first `n` keys, which ENCRYPT keeps and KPUSH keeps, are all that the DECRYPT uses. -/
theorem pushBetweenKeepsInverse : Obligations.PushBetweenKeepsInverse := by
  intro b n key s hn
  have hlen : n.toNat ≤ (keysOf s).length := by rwa [keysOf_length]
  obtain ⟨t, ht, htkeys, htrsp⟩ := exec_encrypt_of_le b hlen
  obtain ⟨u, hu, hpre⟩ := exec_kpush_keeps_prefix key t
  rw [htkeys] at hpre
  obtain ⟨v, hv, -, hvrsp⟩ := exec_decrypt_of_le (rspRES t.rsp) (n := n) (s := u) (hlen.trans hpre.length_le)
  refine ⟨t, u, v, ht, hu, hv, ?_, ?_⟩
  · rw [hvrsp, rspST_packRsp]
    rfl
  · rw [hvrsp, rspRES_packRsp, htrsp, rspRES_packRsp, decryptBlock_encryptBlock_of_prefix hpre hlen]

/-! ### Where a step refuses (spec/93_implementation_defined.md U8) -/

/-- A host that presents nothing breaks the handshake exactly when it presented a word before. -/
theorem keepsHeld_eq_false_iff_of_dropped {p : HostPins} {s : State} (hcmd : p.cmdValid = false) :
    keepsHeld p s = false ↔ s.held ≠ none := by
  cases hheld : s.held <;> simp [keepsHeld, HostPins.presented, hcmd, hheld]

/-- A host that presents a word breaks the handshake exactly when it presented another one before. -/
theorem keepsHeld_eq_false_iff_of_presents {p : HostPins} {s : State} (hcmd : p.cmdValid = true) :
    keepsHeld p s = false ↔ ∃ w, s.held = some w ∧ w ≠ p.cmd := by
  cases hheld : s.held <;> simp [keepsHeld, HostPins.presented, hcmd, hheld, eq_comm]

theorem portEvent_eq_droppedCommand_iff {p : HostPins} {s : State} :
    portEvent p s = .droppedCommand ↔ p.rst = false ∧ p.cmdValid = false ∧ s.held ≠ none := by
  rw [and_congr_right fun _ => and_congr_right fun hcmd => (keepsHeld_eq_false_iff_of_dropped (s := s) hcmd).symm]
  unfold portEvent
  split_ifs <;> simp_all

theorem portEvent_eq_changedCommand_iff {p : HostPins} {s : State} :
    portEvent p s = .changedCommand ↔ p.rst = false ∧ p.cmdValid = true ∧ ∃ w, s.held = some w ∧ w ≠ p.cmd := by
  rw [and_congr_right fun _ => and_congr_right fun hcmd => (keepsHeld_eq_false_iff_of_presents (s := s) hcmd).symm]
  unfold portEvent
  split_ifs <;> simp_all

/-- A step refuses for a broken handshake only: every other event, an accepted word among them, has a next state. -/
theorem step_eq_refused_iff {s : State} {p : HostPins} {rest : List HostPins} {r : Refusal} (hhost : s.host = p :: rest) :
    step s = .refused r ↔
      portEvent p s = .droppedCommand ∧ r = .hostDroppedCommand ∨
        portEvent p s = .changedCommand ∧ r = .hostChangedCommand := by
  simp only [step, hhost, portStep]
  cases portEvent p s with
  | accept w =>
    obtain ⟨t, hrun, -⟩ := runWord_refinesRef w (acceptedState rest s)
    simp [hrun]
  | droppedCommand | changedCommand => simp [eq_comm]
  | reset | take | wait => simp

/-- Settles O47: the two refusals are the two events of a broken handshake, which `rst` overrides (log 9). -/
theorem onlyBrokenHandshakeIsRefused : Obligations.OnlyBrokenHandshakeIsRefused := by
  intro s p rest hhost
  refine ⟨?_, ?_, fun r hstep => ?_⟩
  · simp [step_eq_refused_iff hhost, portEvent_eq_droppedCommand_iff]
  · simp [step_eq_refused_iff hhost, portEvent_eq_changedCommand_iff]
  · exact ((step_eq_refused_iff hhost).mp hstep).imp And.right And.right

/-! ### A host that keeps the handshake (spec/70_reset_and_hazards.md R209, R211) -/

/-- After reset the host is bound by the word it presents then, on an idle port (log 9). -/
theorem hostConforms_of_reset {held : Option CmdWord} {busy : Bool} {p : HostPins} {rest : List HostPins}
    (hrst : p.rst = true) (h : hostConforms held busy (p :: rest) = true) : hostConforms p.presented false rest = true := by
  simpa [hostConforms, hrst] using h

/-- Without reset the host keeps the word it presented before; it goes on presenting it while the core is busy, until the response
is taken, and an idle core accepts it. -/
theorem hostConforms_of_not_reset {held : Option CmdWord} {busy : Bool} {p : HostPins} {rest : List HostPins}
    (hrst : p.rst = false) (h : hostConforms held busy (p :: rest) = true) :
    (held = none ∨ held = p.presented) ∧
      if busy then hostConforms p.presented (!p.rspReady) rest = true else hostConforms none p.cmdValid rest = true := by
  simp only [hostConforms, hrst, Bool.false_eq_true, if_false, Bool.and_eq_true, Bool.or_eq_true, decide_eq_true_eq] at h
  obtain ⟨hkeeps, hrest⟩ := h
  refine ⟨hkeeps.imp_right Eq.symm, ?_⟩
  cases busy <;> cases hcmd : p.cmdValid <;> simpa [hcmd] using hrest

/-- The invariant of a run under a conforming host: BUSY is 1 exactly while a response is pending (log 2), and what is left of the
host's samples keeps the handshake from here on. -/
def State.ConformingHost (s : State) : Prop := s.busy = s.rspValid ∧ hostConforms s.held s.busy s.host = true

/-- With a response pending the core takes it or waits, and the host goes on with the word it presents. -/
theorem step_keeps_conformingHost_of_pending {s : State} {p : HostPins} {rest : List HostPins} (hhost : s.host = p :: rest)
    (hbusy : s.busy = true) (hvalid : s.rspValid = true) (hrst : p.rst = false) (hkeeps : keepsHeld p s = true)
    (hrest : hostConforms p.presented (!p.rspReady) rest = true) : ∃ t, step s = .next t ∧ t.ConformingHost := by
  have hev := portEvent_of_pending hbusy hvalid hrst hkeeps
  cases hready : p.rspReady with
  | true =>
    rw [hready] at hev hrest
    exact ⟨_, step_of_take hhost hev, rfl, hrest⟩
  | false =>
    rw [hready] at hev hrest
    refine ⟨_, step_of_wait hhost hev, hbusy.trans hvalid.symm, ?_⟩
    simpa [hbusy] using hrest

/-- A core with no response pending accepts the word presented and answers it, or waits for one. -/
theorem step_keeps_conformingHost_of_ready {s : State} {p : HostPins} {rest : List HostPins} (hhost : s.host = p :: rest)
    (hbusy : s.busy = false) (hvalid : s.rspValid = false) (hrst : p.rst = false) (hkeeps : keepsHeld p s = true)
    (hrest : hostConforms none p.cmdValid rest = true) : ∃ t, step s = .next t ∧ t.ConformingHost := by
  cases hcmd : p.cmdValid with
  | true =>
    have hev := portEvent_accept_of_ready hrst hcmd hbusy hvalid hkeeps
    obtain ⟨t, hrun, htbusy, htvalid, -⟩ := runWord_legal p.cmd (s := acceptedState rest s) rfl
    obtain ⟨htheld, hthost⟩ := runWord_held_host hrun
    rw [hcmd] at hrest
    refine ⟨t, (step_of_accept hhost hev).trans hrun, htbusy.trans htvalid.symm, ?_⟩
    rwa [htheld, hthost, htbusy, acceptedState_held, acceptedState_host]
  | false =>
    have hev : portEvent p s = .wait := by simp [portEvent, rspValidOut, hrst, hkeeps, hvalid, hcmd]
    refine ⟨_, step_of_wait hhost hev, hbusy.trans hvalid.symm, ?_⟩
    simpa [HostPins.presented, hcmd, hbusy] using hrest

/-- Under a conforming host every step has a next state, from which the host still conforms. -/
theorem step_keeps_conformingHost {s : State} (h : s.ConformingHost) : ∃ t, step s = .next t ∧ t.ConformingHost := by
  obtain ⟨hpending, hconf⟩ := h
  cases hhost : s.host with
  | nil => exact ⟨s, by simp only [step, hhost], hpending, hconf⟩
  | cons p rest =>
    rw [hhost] at hconf
    cases hrst : p.rst with
    | true => exact ⟨_, step_of_reset hhost hrst, rfl, hostConforms_of_reset hrst hconf⟩
    | false =>
      obtain ⟨hheld, hrest⟩ := hostConforms_of_not_reset hrst hconf
      have hkeeps := keepsHeld_of_presented hheld
      cases hbusy : s.busy with
      | true =>
        rw [hbusy] at hpending hrest
        exact step_keeps_conformingHost_of_pending hhost hbusy hpending.symm hrst hkeeps hrest
      | false =>
        rw [hbusy] at hpending hrest
        exact step_keeps_conformingHost_of_ready hhost hbusy hpending.symm hrst hkeeps hrest

/-- Settles O53, by induction on the number of steps. -/
theorem conformingHostIsNeverRefused : Obligations.ConformingHostIsNeverRefused := by
  intro k
  induction k with
  | zero => exact fun s _ _ => ⟨s, rfl⟩
  | succ k ih =>
    intro s hpending hconf
    obtain ⟨t, hstep, htpending, htconf⟩ := step_keeps_conformingHost ⟨hpending, hconf⟩
    rw [run_succ_of_step k hstep]
    exact ih t htpending htconf

end Sys2Proof.Machine
end
